-- ==== Sys2Proof/Word.lean ====
section
/-! DEFINITION. The byte and the byte sequences of 00_scope.md rules R10 and R11. -/

namespace Sys2Proof

/-- A byte: an unsigned 8-bit value, bit 7 the most significant (R10). -/
abbrev Byte := BitVec 8

/-- A frame (RawFrame): the byte sequence of one bus transaction (R11, R15). A legal one has 1 to 128 bytes (R6). -/
abbrev Frame := List Byte

/-- A line, a line's content, or a payload: a finite byte sequence (R11). -/
abbrev Bytes := List Byte

end Sys2Proof
end

