-- ==== Sys2Proof/Config.lean ====
section
/-! DEFINITION. The configuration record of 00_scope.md rule R7: every constant the source names without a number. No
value is fixed here; the machine's state carries the record as its static input (log 3). The rule R9 that says which
records are well-formed is `Cfg.wf` in Machine/CfgWf.lean. -/

namespace Sys2Proof

/-- The six message kinds a `SHAPES` entry may report (R7). -/
inductive ShapeClass where
  | handshakeConfigXml
  | clockSync
  | handshakeComplete
  | notification77
  | programStatus18
  | shortDiagnostic
  deriving DecidableEq, Repr

/-- One entry of `SHAPES`: class, exact length, offset and value pairs (R7, R81). -/
structure Shape where
  cls   : ShapeClass
  len   : Nat
  marks : List (Nat × Byte)
  deriving DecidableEq, Repr

/-- The `some` case of `MARK_CHECK`: where the 2-byte frame marker stands and what it is (R7). -/
structure MarkCheck where
  off : Nat
  b0  : Byte
  b1  : Byte
  deriving DecidableEq, Repr

/-- `Cfg`, the parameters of R7, each under its own name. `contMoreSet` is the 256-bit vector of R7: bit `v` says that
the flag value `v` means "more fragments follow". -/
structure Cfg where
  hdrSize      : Nat
  typeOff      : Nat
  typeVal      : Byte
  contOff      : Nat
  contMoreSet  : BitVec 256
  markCheck    : Option MarkCheck
  bufCap       : Nat
  detMin       : Nat
  detMax       : Nat
  statusMark   : Byte
  combMin      : Nat
  combMax      : Nat
  splitM0      : Byte
  splitM1      : Byte
  shapes       : List Shape
  rxVerify     : Bool
  hexTolerant  : Bool
  versionToken : Bytes
  deriving DecidableEq, Repr

end Sys2Proof
end

