-- ==== Sys2Proof/Syntax.lean ====
section
/-! DEFINITION. The instructions of spec/opcode_table.json, one constructor a row, and what the environment can present.
The table has three formats: operations of the operation port (30_encoding.md rule R84), line kinds of the byte stream
(R77) and frame shapes (R82). -/

namespace Sys2Proof

/-- Token ids, the operand of ENC.TOK (R86, R133). -/
inductive TokenId where
  | ready
  | pong
  | ping
  | version
  deriving DecidableEq, Repr

/-- One constructor for each row of the opcode table. A frame operand is the whole frame (R51: operands are values). -/
inductive Instr where
  -- format OP: the operation port (R84)
  | sysStatus
  | chkGen (f : Frame)
  | chkVfy (f : Frame)
  | chkSeal (f : Frame)
  | encRx (f : Frame)
  | encTx (f : Frame)
  | encTok (k : TokenId)
  | decLine (t : Bytes)
  | decPush (c : Byte)
  | fclClass (f : Frame)
  | rsmFrame (f : Frame)
  | pipePush (c : Byte)
  | sysNewsession
  | reservedD
  | reservedE
  | sysReset
  -- format LINE: a whole line arrives on the byte stream (R77); `r`, `h` are the content after the 3-byte prefix
  | lineBlank
  | lineRx (r : Bytes)
  | lineTx (h : Bytes)
  | lineTokReady
  | lineTokPong
  | lineTokPing
  | lineTokOther (t : Bytes)
  -- format FRAME: a received frame of that shape (R82)
  | frameGo (f : Frame)
  | frameShape (k : ShapeClass) (f : Frame)
  | frameFrag (f : Frame)
  | frameUnrecognized (f : Frame)
  deriving DecidableEq, Repr

/-- What the environment presents, in the table's three formats. `op` is a transaction of the operation port: the 4-bit code
of R84 and the operand as a byte sequence (log 12). `line` is a whole line of the byte stream, without its terminator.
`frame` is a received frame. -/
inductive Transaction where
  | op (code : BitVec 4) (operand : Bytes)
  | line (content : Bytes)
  | frame (f : Frame)
  deriving DecidableEq, Repr

/-- Why a term or a transaction is no instruction (R13 (b): the operands violate the stated precondition). -/
inductive Defect where
  /-- A frame of 0 or of more than 128 bytes (R13, R87). -/
  | frameLength
  /-- A DEC.LINE operand of more than 263 bytes (R150). -/
  | lineTooLong
  /-- A line content that holds the terminator 0x0A (R70, R150). -/
  | lineHasTerminator
  /-- An operand of the wrong shape for its operation code (R84). -/
  | operandShape
  /-- A token id other than 0, 1, 2, 3 (R133). -/
  | tokenId
  /-- A LINE term whose content is of another line kind (R77). -/
  | notThisLineKind
  /-- A FRAME term whose frame is of another shape (R82). -/
  | notThisFrameKind
  deriving DecidableEq, Repr

end Sys2Proof
end

