-- ==== Sys2Proof/Machine/Constants.lean ====
section
/-! DEFINITION. The constants of 00_scope.md rules R6 (settled by the source) and R8 (fixed by the spec), and the code
numbers of 30_encoding.md rules R84 and R86 that an instruction carries. -/

namespace Sys2Proof.Machine

/-- `FRAME_MIN`, `FRAME_MAX`: a RawFrame has "length 1–128" (R6). -/
def frameMin : Nat := 1
def frameMax : Nat := 128

/-- `LINE_TERM`, the byte `\n` that ends every line (R6). -/
def lineTerm : Byte := 0x0A#8

/-- The separator `:` of an `RX:` line (R72). -/
def colon : Byte := 0x3A#8

/-- `PFX_RX`, the bytes `RX:` (R6). -/
def pfxRx : Bytes := [0x52#8, 0x58#8, 0x3A#8]

/-- `PFX_TX`, the bytes `TX:` (R6). -/
def pfxTx : Bytes := [0x54#8, 0x58#8, 0x3A#8]

/-- `TOK_READY`, `TOK_PONG`, `TOK_PING` (R6, R154). -/
def tokReady : Bytes := [0x52#8, 0x45#8, 0x41#8, 0x44#8, 0x59#8]
def tokPong : Bytes := [0x50#8, 0x4F#8, 0x4E#8, 0x47#8]
def tokPing : Bytes := [0x50#8, 0x49#8, 0x4E#8, 0x47#8]

/-- `GO_LEN`, `GO_OFF`, `GO_B0`, `GO_B1`: the exact shape of a `GoKeepalive` frame (R6, R80). -/
def goLen : Nat := 15
def goOff : Nat := 13
def goB0 : Byte := 0x47#8
def goB1 : Byte := 0x4F#8

/-- `LINE_CAP`, the capacity of the line buffer, terminator not stored (R8). -/
def lineCap : Nat := 263

/-- `W_LLEN`, the width of `LLEN` (R8). -/
def wLlen : Nat := 9

/-- `W_RLEN`, the width of `RLEN` and `CSL`: ceil(log2(BUF_CAP + 1)) bits (R8). -/
def wRlen (cfg : Cfg) : Nat := Nat.clog 2 (cfg.bufCap + 1)

/-- The codes of the token ids (R86). -/
def tokenIdCode : TokenId → Byte
  | .ready => 0
  | .pong => 1
  | .ping => 2
  | .version => 3

/-- The token id a byte names; any other byte names none (R133). -/
def tokenIdOf (b : Byte) : Option TokenId :=
  if b = 0 then some .ready
  else if b = 1 then some .pong
  else if b = 2 then some .ping
  else if b = 3 then some .version
  else none

end Sys2Proof.Machine
end

