-- ==== Sys2Proof/Machine/CfgWf.lean ====
section
/-! DEFINITION. Which configurations are well-formed (00_scope.md rules R7 and R9), and the spec's illustrative
configuration T1 of 95_test_vectors.md. -/

namespace Sys2Proof

open Machine

/-- The constraint of R7 on one `SHAPES` entry. The class constraint holds by type. -/
def Shape.wf (sh : Shape) : Bool :=
  decide (1 ≤ sh.len) && decide (sh.len ≤ 128) && sh.marks.all fun m => decide (m.1 < sh.len)

/-- The constraint of R7 on `VERSION_TOKEN`. -/
def versionTokenWf (v : Bytes) : Bool :=
  decide (1 ≤ v.length) && decide (v.length ≤ 263) && !v.contains lineTerm
    && !(pfxRx.isPrefixOf v) && !(pfxTx.isPrefixOf v)
    && !(v == tokReady) && !(v == tokPong) && !(v == tokPing)

/-- A configuration is well-formed when every constraint of R7's "Type" column holds (R9). -/
def Cfg.wf (c : Cfg) : Bool :=
  decide (2 ≤ c.hdrSize) && decide (c.hdrSize ≤ 128)
    && decide (c.typeOff < c.hdrSize) && decide (c.contOff < c.hdrSize)
    && (match c.markCheck with
        | none => true
        | some m => decide (m.off + 1 < c.hdrSize))
    && decide (2 ≤ c.bufCap)
    && decide (2 ≤ c.detMin) && decide (c.detMin ≤ c.detMax) && decide (c.detMax ≤ c.bufCap)
    && decide (c.combMin ≤ c.combMax) && decide (c.combMax ≤ c.bufCap)
    && c.shapes.all Shape.wf
    && versionTokenWf c.versionToken

/-- T1, "the illustrative configuration T1 of 95_test_vectors.md": "T1's values are this spec's inventions for testing, not
the device's" (44_reassembler.md). DESIGN CHOICE: it is what the configuration input holds in `State.reset` (log 3). -/
def cfgT1 : Cfg where
  hdrSize := 6
  typeOff := 2
  typeVal := 0xA5#8
  contOff := 3
  contMoreSet := 1#256 <<< 1
  markCheck := none
  bufCap := 16
  detMin := 4
  detMax := 6
  statusMark := 0x53#8
  combMin := 8
  combMax := 12
  splitM0 := 0xC5#8
  splitM1 := 0x5C#8
  shapes := []
  rxVerify := false
  hexTolerant := false
  versionToken := [0x47#8, 0x46#8, 0x43#8, 0x52#8, 0x2D#8, 0x54#8, 0x31#8]

end Sys2Proof
end

