-- ==== Sys2Proof/Machine/Operands.lean ====
section
/-! DEFINITION. The operand forms: which frames and line contents are legal operands (R13, R150), and the text helpers of
00_scope.md rule R14 with which operands are written to and read from a line. -/

namespace Sys2Proof.Machine

/-- The exclusive-or of all bytes of a sequence, 0x00 for the empty one (R11). -/
def xorAll : Bytes → Byte
  | [] => 0x00#8
  | b :: bs => b ^^^ xorAll bs

/-- A frame operand has 1 to 128 bytes; any other is refused (R13, R87). -/
def frameDefect (f : Frame) : Option Defect :=
  if frameMin ≤ f.length ∧ f.length ≤ frameMax then none else some .frameLength

/-- The content of a line holds no terminator (R70). -/
def contentDefect (t : Bytes) : Option Defect :=
  if t.contains lineTerm then some .lineHasTerminator else none

/-- The operand of DEC.LINE: at most 263 bytes, none of them 0x0A (R150). -/
def decLineDefect (t : Bytes) : Option Defect :=
  if lineCap < t.length then some .lineTooLong else contentDefect t

/-- `isdec(c)`: a decimal digit (R14). -/
def isdec (c : Byte) : Bool := decide (0x30#8 ≤ c) && decide (c ≤ 0x39#8)

/-- `decval(c) = c − 0x30` (R14). -/
def decval (c : Byte) : Nat := c.toNat - 0x30

/-- `ishex(c)`: a hex digit of either case (R14, R76). -/
def ishex (c : Byte) : Bool :=
  isdec c || (decide (0x41#8 ≤ c) && decide (c ≤ 0x46#8)) || (decide (0x61#8 ≤ c) && decide (c ≤ 0x66#8))

/-- `hexval(c)` (R14, R76). It is defined only when `ishex c`; every use stands behind that test. -/
def hexval (c : Byte) : Byte :=
  if isdec c then c - 0x30#8
  else if c ≤ 0x46#8 then c - 0x41#8 + 10#8
  else c - 0x61#8 + 10#8

/-- `hexdig(v)` for a nibble: uppercase (R14). -/
def hexdig (v : Byte) : Byte := if v ≤ 9#8 then 0x30#8 + v else 0x41#8 + v - 10#8

/-- `hex2(b)`: two digits, the high nibble's first (R14, R55). -/
def hex2 (b : Byte) : Bytes := [hexdig (b >>> 4), hexdig (b &&& 0x0F#8)]

/-- `hexstr(f)`: two digits a byte, no separators (R14). -/
def hexstr (f : Frame) : Bytes := f.flatMap hex2

/-- The decimal digits of `n`, with `fuel` at least the number of digits less one. -/
def decDigits : Nat → Nat → Bytes
  | 0, n => [BitVec.ofNat 8 (0x30 + n % 10)]
  | fuel + 1, n =>
    if n < 10 then [BitVec.ofNat 8 (0x30 + n)]
    else decDigits fuel (n / 10) ++ [BitVec.ofNat 8 (0x30 + n % 10)]

/-- `dec(n)`: the shortest string of decimal digits whose value is `n`, most significant first (R14). -/
def dec (n : Nat) : Bytes := decDigits n n

/-- `decparse(s)`: defined for 1 to 3 decimal digits; leading zeros are accepted (R14, R75). -/
def decparse (s : Bytes) : Option Nat :=
  if 1 ≤ s.length ∧ s.length ≤ 3 ∧ s.all isdec = true then
    some (s.foldl (fun acc c => acc * 10 + decval c) 0)
  else none

end Sys2Proof.Machine
end

