-- ==== Sys2Proof/Machine/Classifier.lean ====
section
/-! DEFINITION. The frame classifier FCL as a function (43_frame_classifier.md): the opcode map of frames of
30_encoding.md rule R82. It reads the frame and the configuration and nothing else (R186). -/

namespace Sys2Proof.Machine

/-- The frame classes FCL.CLASS returns (R86, R181). -/
inductive FrameClass where
  | goKeepalive
  | shape (k : ShapeClass)
  | fragment
  | unrecognized
  deriving DecidableEq, Repr

/-- The codes of the frame classes, 0 to 8 (R86). -/
def frameClassCode : FrameClass → Nat
  | .goKeepalive => 0
  | .shape .handshakeConfigXml => 1
  | .shape .clockSync => 2
  | .shape .handshakeComplete => 3
  | .shape .notification77 => 4
  | .shape .programStatus18 => 5
  | .shape .shortDiagnostic => 6
  | .fragment => 7
  | .unrecognized => 8

/-- `IS_GO(f)` (R182). -/
def isGo (f : Frame) : Bool :=
  decide (f.length = goLen) && f[goOff]? == some goB0 && f[goOff + 1]? == some goB1

/-- `IS_SHAPE(f, L, marks)` (R183). -/
def isShape (f : Frame) (sh : Shape) : Bool :=
  decide (f.length = sh.len) && sh.marks.all fun m => f[m.1]? == some m.2

/-- The optional comparison of the frame marker (R184). -/
def markOk (cfg : Cfg) (f : Frame) : Bool :=
  match cfg.markCheck with
  | none => true
  | some m => f[m.off]? == some m.b0 && f[m.off + 1]? == some m.b1

/-- `IS_FRAG(f)`, the fragment validation (R184). -/
def isFrag (cfg : Cfg) (f : Frame) : Bool :=
  decide (cfg.hdrSize ≤ f.length) && f[cfg.typeOff]? == some cfg.typeVal && markOk cfg f

/-- `FCL.CLASS(f)` (R181): `GoKeepalive`, then `SHAPES` in list order, then the fragment test, else unrecognized. -/
def classify (cfg : Cfg) (f : Frame) : FrameClass :=
  if isGo f then .goKeepalive
  else match cfg.shapes.find? (isShape f) with
    | some sh => .shape sh.cls
    | none => if isFrag cfg f then .fragment else .unrecognized

/-- The frame of a FRAME term: a legal frame whose class is the term's (R82). -/
def frameKindDefect (cfg : Cfg) (k : FrameClass) (f : Frame) : Option Defect :=
  match frameDefect f with
  | some d => some d
  | none => if classify cfg f = k then none else some .notThisFrameKind

end Sys2Proof.Machine
end

