-- ==== Sys2Proof/Machine/Lines.lean ====
section
/-! DEFINITION. The opcode map of lines (30_encoding.md rule R77): the kind of a line content, by the first test that
succeeds. -/

namespace Sys2Proof.Machine

/-- The seven line kinds of R77. -/
inductive LineKind where
  | blank
  | rx
  | tx
  | ready
  | pong
  | ping
  | other
  deriving DecidableEq, Repr

/-- R77, the tests in their order. A content shorter than 3 bytes has no prefix. -/
def lineKind (t : Bytes) : LineKind :=
  if t = [] then .blank
  else if t.take 3 = pfxRx then .rx
  else if t.take 3 = pfxTx then .tx
  else if t = tokReady then .ready
  else if t = tokPong then .pong
  else if t = tokPing then .ping
  else .other

/-- The content of a LINE_TOK_OTHER line: no terminator, and none of the earlier kinds (R77). -/
def otherDefect (t : Bytes) : Option Defect :=
  match contentDefect t with
  | some d => some d
  | none => if lineKind t = .other then none else some .notThisLineKind

end Sys2Proof.Machine
end

