-- ==== Sys2Proof/WellFormed.lean ====
section
/-! DEFINITION. Which terms of `Instr` are instructions: the operand checks of 00_scope.md rule R13 (b), per constructor. A
FRAME term depends on the configuration, since its shape does (R81, R184). -/

namespace Sys2Proof

open Machine

/-- What is wrong with a term's operands, if anything. -/
def Instr.defect (cfg : Cfg) : Instr → Option Defect
  | .sysStatus => none
  | .chkGen f => frameDefect f
  | .chkVfy f => frameDefect f
  | .chkSeal f => frameDefect f
  | .encRx f => frameDefect f
  | .encTx f => frameDefect f
  | .encTok _ => none
  | .decLine t => decLineDefect t
  | .decPush _ => none
  | .fclClass f => frameDefect f
  | .rsmFrame f => frameDefect f
  | .pipePush _ => none
  | .sysNewsession => none
  | .reservedD => none
  | .reservedE => none
  | .sysReset => none
  | .lineBlank => none
  | .lineRx r => contentDefect r
  | .lineTx h => contentDefect h
  | .lineTokReady => none
  | .lineTokPong => none
  | .lineTokPing => none
  | .lineTokOther t => otherDefect t
  | .frameGo f => frameKindDefect cfg .goKeepalive f
  | .frameShape k f => frameKindDefect cfg (.shape k) f
  | .frameFrag f => frameKindDefect cfg .fragment f
  | .frameUnrecognized f => frameKindDefect cfg .unrecognized f

/-- A term with no defect is a well-formed instruction. -/
def Instr.wf (cfg : Cfg) (i : Instr) : Bool := (i.defect cfg).isNone

end Sys2Proof
end

