-- ==== Sys2Proof/Decode.lean ====
section
/-! DEFINITION. The decoder, total on whatever the environment presents, rejecting by name; after it the encoder. The three
formats are those of spec/opcode_table.json: the operation codes of 30_encoding.md rule R84, the line map of R77 and the
frame map of R82. The layout of an operand at the port is the model's (log 12): a frame, a line content, a stream byte
or a token id is its byte sequence. -/

namespace Sys2Proof

open Machine

/-- An operation with no operand. -/
def withNone (operand : Bytes) (i : Instr) : Except Defect Instr :=
  if operand = [] then .ok i else .error .operandShape

/-- An operation whose operand is one stream byte. -/
def withByte (operand : Bytes) (mk : Byte → Instr) : Except Defect Instr :=
  match operand with
  | [c] => .ok (mk c)
  | _ => .error .operandShape

/-- ENC.TOK: the operand is one byte that names a token id (R86, R133). -/
def withToken (operand : Bytes) (mk : TokenId → Instr) : Except Defect Instr :=
  match operand with
  | [b] => match tokenIdOf b with
    | some k => .ok (mk k)
    | none => .error .tokenId
  | _ => .error .operandShape

/-- The sixteen codes of R84. -/
def decodeOp (code : BitVec 4) (operand : Bytes) : Except Defect Instr :=
  match code.toNat with
  | 0x0 => withNone operand .sysStatus
  | 0x1 => .ok (.chkGen operand)
  | 0x2 => .ok (.chkVfy operand)
  | 0x3 => .ok (.chkSeal operand)
  | 0x4 => .ok (.encRx operand)
  | 0x5 => .ok (.encTx operand)
  | 0x6 => withToken operand .encTok
  | 0x7 => .ok (.decLine operand)
  | 0x8 => withByte operand .decPush
  | 0x9 => .ok (.fclClass operand)
  | 0xA => .ok (.rsmFrame operand)
  | 0xB => withByte operand .pipePush
  | 0xC => withNone operand .sysNewsession
  | 0xD => withNone operand .reservedD
  | 0xE => withNone operand .reservedE
  | 0xF => withNone operand .sysReset
  | _ => .error .operandShape

/-- The opcode map of lines (R77). -/
def decodeLineFormat (t : Bytes) : Instr :=
  match lineKind t with
  | .blank => .lineBlank
  | .rx => .lineRx (t.drop 3)
  | .tx => .lineTx (t.drop 3)
  | .ready => .lineTokReady
  | .pong => .lineTokPong
  | .ping => .lineTokPing
  | .other => .lineTokOther t

/-- The opcode map of frames (R82). -/
def decodeFrameFormat (cfg : Cfg) (f : Frame) : Instr :=
  match classify cfg f with
  | .goKeepalive => .frameGo f
  | .shape k => .frameShape k f
  | .fragment => .frameFrag f
  | .unrecognized => .frameUnrecognized f

/-- The term a transaction spells, before its operands are checked. -/
def decodeRaw (cfg : Cfg) : Transaction → Except Defect Instr
  | .op code operand => decodeOp code operand
  | .line t => .ok (decodeLineFormat t)
  | .frame f => .ok (decodeFrameFormat cfg f)

/-- The decoder: the well-formed instruction a transaction spells, or the name of what is wrong with it. -/
def decode (cfg : Cfg) (t : Transaction) : Except Defect Instr :=
  match decodeRaw cfg t with
  | .error d => .error d
  | .ok i => match i.defect cfg with
    | some d => .error d
    | none => .ok i

/-- The encoder, from the same tables (R84, R72 to R74, R78). -/
def encode : Instr → Transaction
  | .sysStatus => .op 0x0 []
  | .chkGen f => .op 0x1 f
  | .chkVfy f => .op 0x2 f
  | .chkSeal f => .op 0x3 f
  | .encRx f => .op 0x4 f
  | .encTx f => .op 0x5 f
  | .encTok k => .op 0x6 [tokenIdCode k]
  | .decLine t => .op 0x7 t
  | .decPush c => .op 0x8 [c]
  | .fclClass f => .op 0x9 f
  | .rsmFrame f => .op 0xA f
  | .pipePush c => .op 0xB [c]
  | .sysNewsession => .op 0xC []
  | .reservedD => .op 0xD []
  | .reservedE => .op 0xE []
  | .sysReset => .op 0xF []
  | .lineBlank => .line []
  | .lineRx r => .line (pfxRx ++ r)
  | .lineTx h => .line (pfxTx ++ h)
  | .lineTokReady => .line tokReady
  | .lineTokPong => .line tokPong
  | .lineTokPing => .line tokPing
  | .lineTokOther t => .line t
  | .frameGo f => .frame f
  | .frameShape _ f => .frame f
  | .frameFrag f => .frame f
  | .frameUnrecognized f => .frame f

/-- The operand of zeros of an operation code: one zero byte where the operand is a frame, a stream byte or a token id, no
byte where it is a line content or nothing (log 12). -/
def zeroOperand (code : Nat) : Bytes :=
  if code = 0x0 ∨ code = 0x7 ∨ 0xC ≤ code then [] else [0x00#8]

/-- The `n` bytes of `w`, the most significant first: the table numbers a LINE or FRAME window so ("byte 0 most
significant in match/mask"). -/
def windowBytes : Nat → Nat → Bytes
  | 0, _ => []
  | n + 1, w => BitVec.ofNat 8 (w / 256 ^ n) :: windowBytes n w

/-- The transaction that the table's word `w` of `nbits` bits stands for (log 12). The format follows from the width: 4 bits
in one byte are an operation code; 16 bits are the window 13..14 of a 15-byte frame whose other bytes are zero; no bits
or 24 and more are the window of a line content. -/
def tableTransaction (nbits w : Nat) : Option Transaction :=
  if nbits = 0 then some (.line [])
  else if nbits ≤ 8 then
    if w < 16 then some (.op (BitVec.ofNat 4 w) (zeroOperand w)) else none
  else if nbits ≤ 16 then some (.frame (List.replicate goOff 0x00#8 ++ windowBytes 2 w))
  else some (.line (windowBytes (nbits / 8) w))

/-- The instruction the decoder reads from a table word, under the configuration of `State.reset`. -/
def decodeTableWord (nbits w : Nat) : Option Instr :=
  match tableTransaction nbits w with
  | none => none
  | some t => match decode cfgT1 t with
    | .ok i => some i
    | .error _ => none

end Sys2Proof
end

