-- ==== Sys2Proof/Machine/State.lean ====
section
/-! DEFINITION. The state of the block: the eight elements of 10_state.md rule R20, the two static inputs (configuration
and reset input), and the model's own record of what the environment has presented and received. Plain data throughout. -/

namespace Sys2Proof.Machine

/-- One byte buffer: the bytes written to it, as (index, byte) pairs with indices strictly rising. An index that is not
listed holds no value the model knows: reading it is a fault (log 4, safe; 93 S4). -/
abbrev Memory := List Host.Cell

/-- The two byte-addressed spaces of 20_memory.md rule R50. -/
inductive Space where
  | lb
  | rb
  deriving DecidableEq, Repr

/-- The three states of `RST`; the value 3 is never held (R28). -/
inductive RstState where
  | idle
  | accum
  | resync
  deriving DecidableEq, Repr

/-- Reasons of `Malformed` and `MalformedEnvelope` (R86). -/
inductive Reason where
  | overlong
  | noLenSep
  | badLen
  | oddHex
  | nonHex
  | lenMismatch
  | badSize
  deriving DecidableEq, Repr

/-- Token kinds as the decoder reports them (R85, R86). -/
inductive TokenKind where
  | ready
  | pong
  | ping
  | other
  deriving DecidableEq, Repr

/-- The envelope DEC.LINE returns (R86). -/
inductive Envelope where
  | blank
  | rxFrame (f : Frame)
  | txFrame (f : Frame)
  | token (kind : TokenKind) (text : Bytes)
  | malformed (reason : Reason)
  deriving DecidableEq, Repr

/-- The events of R85. The last four are the error kinds of 60_exceptions.md. -/
inductive Event where
  | envRx (f : Frame)
  | envTx (f : Frame)
  | envToken (kind : TokenKind) (text : Bytes)
  | message (cls : FrameClass) (f : Frame)
  | canonicalLengthPinned (n : Nat)
  | statusOnly (payload : Bytes)
  | combined (config status : Bytes)
  | malformedEnvelope (reason : Reason) (text : Bytes)
  | checksumMismatch (f : Frame)
  | unrecognizedMessageShape (raw : Bytes)
  | reassemblyOverflow (oldRlen payloadLen : Nat)
  deriving DecidableEq, Repr

/-- The tuple SYS.STATUS returns (R250). -/
structure Status where
  rst      : RstState
  rlen     : Nat
  cslValid : Bool
  csl      : Nat
  llen     : Nat
  lovf     : Bool
  deriving DecidableEq, Repr

/-- The values operations return (R84). -/
inductive Value where
  | byte (b : Byte)
  | bool (b : Bool)
  | frame (f : Frame)
  | line (l : Bytes)
  | envelope (e : Envelope)
  | cls (c : FrameClass)
  | status (t : Status)
  deriving DecidableEq, Repr

/-- What an operation that is done hands to the environment: a value, where it has one, and its ordered event list (R13). -/
structure Delivery where
  value  : Option Value
  events : List Event
  deriving DecidableEq, Repr

/-- What the environment can do to the block: present a transaction (R84), drive the reset input (R290), supply the
configuration while reset is asserted (R292, R297). -/
inductive Input where
  | present (t : Transaction)
  | resetLine (asserted : Bool)
  | supplyCfg (c : Cfg)
  deriving DecidableEq, Repr

/-- Why a step can fault. Both say that the model has no byte to give; neither arises in a state that satisfies the
invariant `State.Inv` of Safety.lean. -/
inductive Fault where
  /-- Raised by `memRead` and `memWrite`: an index outside the buffer, which the spec says does not exist (R50). Safe. -/
  | outsideBuffer (sp : Space)
  /-- Raised by `memRead`: a byte of the buffer that nothing has written, whose content the spec leaves unspecified
  (R53, R291, log 4). Safe. -/
  | unwrittenByte (sp : Space)
  deriving DecidableEq, Repr

/-- Why a step has no meaning (R13 (b)). -/
inductive Refusal where
  /-- The dispatcher's answer for an instruction that has no meaning yet. Safe. -/
  | notModelled (mnemonic : String)
  /-- Raised by every operation whose operand violates its precondition, and by the decoder (R13, R87). Safe. -/
  | operand (d : Defect)
  /-- Raised by the reserved operation codes 0xD and 0xE (R88). Safe. -/
  | reservedOperation (code : BitVec 4)
  /-- Raised by everything under a configuration that is not well-formed (R9). Safe. -/
  | illFormedConfig
  /-- Raised by the step when a transaction is presented while the reset input is asserted (R290, log 9). Safe. -/
  | heldInReset
  /-- Raised by the step when a configuration is supplied while reset is not asserted (R292, log 10). Safe. -/
  | configOutsideReset
  deriving DecidableEq, Repr

/-- The machine's state. -/
structure State where
  /-- The static configuration input (R7, R292). No operation writes it. -/
  cfg       : Cfg
  /-- `LB`, the line buffer (R22). -/
  lb        : Memory
  /-- `LLEN`, the number of bytes of the current line (R23). -/
  llen      : Nat
  /-- `LOVF`, the line-overflow bit (R24). -/
  lovf      : Bool
  /-- `RB`, the reassembly buffer (R26). -/
  rb        : Memory
  /-- `RLEN`, the number of payload bytes accumulated (R27). -/
  rlen      : Nat
  /-- `RST`, the reassembler's state register (R28). -/
  rst       : RstState
  /-- `CSL`, the canonical status length (R30). -/
  csl       : Nat
  /-- `CSL_VALID`, whether `CSL` has been pinned in this session (R31). -/
  cslValid  : Bool
  /-- The level of the reset input (R290). -/
  resetHeld : Bool
  /-- What the environment has presented and the block has not yet taken, oldest first. The model's own (log 1). -/
  port      : List Input
  /-- What the operations done so far have returned, oldest first. The model's own record (log 2). -/
  delivered : List Delivery
  deriving DecidableEq, Repr

/-- The state after reset (R291) under the configuration `c`: nothing in the buffers, nothing presented, nothing
delivered. -/
def State.resetWith (c : Cfg) : State where
  cfg := c
  lb := []
  llen := 0
  lovf := false
  rb := []
  rlen := 0
  rst := .idle
  csl := 0
  cslValid := false
  resetHeld := false
  port := []
  delivered := []

/-- The machine right after reset (R291). The configuration input is not reset (R292): what it holds here is T1
(DESIGN CHOICE, log 3). -/
def State.reset : State := State.resetWith cfgT1

end Sys2Proof.Machine
end

