-- ==== Sys2Proof/Machine/Flags.lean ====
section
/-! DEFINITION. The two one-bit state elements (10_state.md rule R35) and the code numbers of events, reasons and states
(30_encoding.md rules R85 and R86). There are no condition codes. -/

namespace Sys2Proof.Machine

/-- `LOVF` after a byte that is not the terminator: set when the line buffer is full, otherwise kept (R24). -/
def lovfAfterByte (s : State) : Bool := if s.llen < lineCap then s.lovf else true

/-- Whether the canonical-length detector fires on the completed payload `p` (R212); firing is the only thing that sets
`CSL_VALID` (R31). The first byte is read only when the length lies in the bracket. -/
def detectorFires (s : State) (p : Bytes) : Bool :=
  !s.cslValid && decide (s.cfg.detMin ≤ p.length) && decide (p.length ≤ s.cfg.detMax)
    && p[0]? == some s.cfg.statusMark

/-- The codes of `RST` (R86). -/
def rstCode : RstState → Nat
  | .idle => 0
  | .accum => 1
  | .resync => 2

/-- The codes of the malformed reasons (R86). -/
def reasonCode : Reason → Nat
  | .overlong => 1
  | .noLenSep => 2
  | .badLen => 3
  | .oddHex => 4
  | .nonHex => 5
  | .lenMismatch => 6
  | .badSize => 7

/-- The codes of the token kinds (R86). -/
def tokenKindCode : TokenKind → Nat
  | .ready => 0
  | .pong => 1
  | .ping => 2
  | .other => 3

/-- The codes of the events (R85). -/
def eventCode : Event → Nat
  | .envRx _ => 0x01
  | .envTx _ => 0x02
  | .envToken _ _ => 0x03
  | .message _ _ => 0x04
  | .canonicalLengthPinned _ => 0x05
  | .statusOnly _ => 0x06
  | .combined _ _ => 0x07
  | .malformedEnvelope _ _ => 0x10
  | .checksumMismatch _ => 0x11
  | .unrecognizedMessageShape _ => 0x12
  | .reassemblyOverflow _ _ => 0x13

/-- The four error kinds are the events of code 0x10 and above (R85, R267). -/
def isError (e : Event) : Bool := decide (0x10 ≤ eventCode e)

end Sys2Proof.Machine
end

