-- ==== Sys2Proof/Machine/Ops.lean ====
section
/-! DEFINITION. The shared operations over the buffers and registers, the acceptance of an operation, its end, and the
raising of an error. Everything an instruction does to the state goes through this file. -/

namespace Sys2Proof.Machine

/-! ## One buffer -/

/-- The byte at index `a`, if one has been written. -/
def Memory.read (m : Memory) (a : Nat) : Option Byte :=
  match m with
  | [] => none
  | c :: rest => if c.1 = a then some c.2 else Memory.read rest a

/-- Write one byte, keeping the indices strictly rising. -/
def Memory.write (m : Memory) (a : Nat) (b : Byte) : Memory :=
  match m with
  | [] => [(a, b)]
  | c :: rest =>
    if a < c.1 then (a, b) :: c :: rest
    else if a = c.1 then (a, b) :: rest
    else c :: Memory.write rest a b

/-- Write a run of bytes from index `a` on. -/
def Memory.writeBytes (m : Memory) (a : Nat) (v : Bytes) : Memory :=
  match v with
  | [] => m
  | b :: bs => Memory.writeBytes (m.write a b) (a + 1) bs

/-- Read `n` bytes from index `a` on; none when one of them has not been written. -/
def Memory.readBytes (m : Memory) (a n : Nat) : Option Bytes :=
  match n with
  | 0 => some []
  | k + 1 => match m.read a, Memory.readBytes m (a + 1) k with
    | some b, some bs => some (b :: bs)
    | _, _ => none

/-- The canonical form: every index of the list is below the next one, so no index is listed twice. -/
def Memory.wf (m : Memory) : Bool :=
  match m with
  | [] => true
  | c :: rest => (match rest with
    | [] => true
    | d :: _ => decide (c.1 < d.1)) && Memory.wf rest

/-! ## Registers (R12: `REG <- v`) -/

def State.setLb (s : State) (m : Memory) : State := { s with lb := m }
def State.setLlen (s : State) (n : Nat) : State := { s with llen := n }
def State.setLovf (s : State) (b : Bool) : State := { s with lovf := b }
def State.setRb (s : State) (m : Memory) : State := { s with rb := m }
def State.setRlen (s : State) (n : Nat) : State := { s with rlen := n }
def State.setRst (s : State) (r : RstState) : State := { s with rst := r }
def State.setCsl (s : State) (n : Nat) : State := { s with csl := n }
def State.setCslValid (s : State) (b : Bool) : State := { s with cslValid := b }

/-- The value and the events of an operation that is done go to the environment (R13, R61). -/
def State.deliver (s : State) (v : Option Value) (ev : List Event) : State :=
  { s with delivered := s.delivered ++ [⟨v, ev⟩] }

/-! ## The two buffers (R12: `MemRead`, `MemWrite`) -/

/-- The number of bytes of a buffer (R50). -/
def capacity (cfg : Cfg) : Space → Nat
  | .lb => lineCap
  | .rb => cfg.bufCap

/-- The contents of a buffer. -/
def State.buffer (s : State) : Space → Memory
  | .lb => s.lb
  | .rb => s.rb

def State.setBuffer (s : State) (sp : Space) (m : Memory) : State :=
  match sp with
  | .lb => s.setLb m
  | .rb => s.setRb m

/-- `MemRead(sp, a, n)` (R12). -/
def memRead (s : State) (sp : Space) (a n : Nat) : Except Fault Bytes :=
  if capacity s.cfg sp < a + n then .error (.outsideBuffer sp)
  else match (s.buffer sp).readBytes a n with
    | some v => .ok v
    | none => .error (.unwrittenByte sp)

/-- `MemWrite(sp, a, len(v), v)` (R12). -/
def memWrite (s : State) (sp : Space) (a : Nat) (v : Bytes) : Except Fault State :=
  if capacity s.cfg sp < a + v.length then .error (.outsideBuffer sp)
  else .ok (s.setBuffer sp ((s.buffer sp).writeBytes a v))

/-! ## How an operation begins and ends -/

/-- What the statements of an operation give: the state after its writes and its event list, or a model fault. -/
abbrev Effect := Except Fault (State × List Event)

/-- `emit` of a list of events as the end of an operation (R13 (a)). -/
def emit (s : State) (ev : List Event) : Effect := .ok (s, ev)

/-- Taking an error, the block's one kind of exception: "`emit <Error>(info)`, make exactly the state writes the error's
rule lists, and end the operation as done" (R13, R260, R273). Nothing is saved and control goes nowhere; the writes are
already in `s`. There is no return from it (R275). -/
def raise (s : State) (e : Event) : Effect := emit s [e]

/-- An operation is accepted when the configuration is well-formed (R9) and its operand meets the stated precondition
(R13 (b)); otherwise it is refused, by name. -/
def accept (s : State) (d : Option Defect) (o : Host.Outcome State Fault Refusal) : Host.Outcome State Fault Refusal :=
  if s.cfg.wf then
    match d with
    | none => o
    | some d => .refused (.operand d)
  else .refused .illFormedConfig

/-- A pure operation: it returns a value and no event, and writes nothing (R117, R130, R150, R181, R250). -/
def returns (s : State) (v : Value) : Host.Outcome State Fault Refusal := .next (s.deliver (some v) [])

/-- An operation that returns its event list (R84). -/
def finish (r : Effect) : Host.Outcome State Fault Refusal :=
  match r with
  | .ok p => .next (p.1.deliver none p.2)
  | .error x => .fault x

/-- The writes of SYS.NEWSESSION (R245). -/
def State.newSession (s : State) : State := (((s.setRlen 0).setRst .idle).setCsl 0).setCslValid false

/-- The writes of SYS.RESET and of the reset input (R248, R290): the contents of `LB` and `RB` are not cleared. -/
def State.hardReset (s : State) : State := ((s.setLlen 0).setLovf false).newSession

end Sys2Proof.Machine
end

