-- ==== Sys2Proof/Machine/Chk.lean ====
section
/-! DEFINITION. The checksum unit CHK (40_checksum.md): CHK.GEN, CHK.VFY, CHK.SEAL. Pure: no state, no events. -/

namespace Sys2Proof.Machine

/-- `CHK.GEN(f)`: the exclusive-or of all bytes but the last (R110, R111). -/
def chkGen (f : Frame) : Byte := xorAll f.dropLast

/-- `CHK.VFY(f)`: the exclusive-or of all bytes, the last included, is zero (R112). -/
def chkVfy (f : Frame) : Bool := xorAll f == 0x00#8

/-- `CHK.SEAL(f)`: the last byte is overwritten with the checksum; the length does not change (R113). -/
def chkSeal (f : Frame) : Frame := f.dropLast ++ [chkGen f]

/-- CHK.GEN (R111). -/
def execChkGen (f : Frame) (s : State) : Host.Outcome State Fault Refusal :=
  accept s (frameDefect f) (returns s (.byte (chkGen f)))

/-- CHK.VFY (R112). -/
def execChkVfy (f : Frame) (s : State) : Host.Outcome State Fault Refusal :=
  accept s (frameDefect f) (returns s (.bool (chkVfy f)))

/-- CHK.SEAL (R113). -/
def execChkSeal (f : Frame) (s : State) : Host.Outcome State Fault Refusal :=
  accept s (frameDefect f) (returns s (.frame (chkSeal f)))

end Sys2Proof.Machine
end

