-- ==== Sys2Proof/Machine/Dec.lean ====
section
/-! DEFINITION. The hex-ASCII line decoder DEC (42_hex_decode.md): DEC.LINE, the pure function from one line content to
an envelope, and DEC.PUSH, the stream front end over `LB`, `LLEN`, `LOVF`. -/

namespace Sys2Proof.Machine

/-- The bytes of a hex field under a nibble reading `v`: two digits a byte, the high nibble first; a digit left over at
the end is read as if a zero nibble followed (R76, R156, R158). -/
def pairUp (v : Byte → Byte) : Bytes → Bytes
  | [] => []
  | [a] => [16#8 * v a]
  | a :: b :: rest => (16#8 * v a + v b) :: pairUp v rest

/-- HEXDEC in strict mode (R156): the odd-length test comes first. So a field of odd length that ends in 0x0D is `ODD_HEX`,
where a corner case of R170 and decision D14 say `NON_HEX`: DESIGN CHOICE, log 14. -/
def hexdecStrict (h : Bytes) : Except Reason Bytes :=
  if h.length % 2 = 1 then .error .oddHex
  else if h.all ishex = true then .ok (pairUp hexval h)
  else .error .nonHex

/-- HEXDEC in tolerant mode (R158): a character that is no hex digit counts as the nibble 0; it never fails. -/
def hexdecTolerant (h : Bytes) : Bytes := pairUp (fun c => if ishex c then hexval c else 0#8) h

/-- HEXDEC, the mode chosen by `HEX_TOLERANT` (R157). -/
def hexdec (cfg : Cfg) (h : Bytes) : Except Reason Bytes :=
  if cfg.hexTolerant then .ok (hexdecTolerant h) else hexdecStrict h

/-- The bytes before and after the first `:`, if there is one (R152). -/
def splitColon : Bytes → Option (Bytes × Bytes)
  | [] => none
  | c :: rest =>
    if c = colon then some ([], rest)
    else match splitColon rest with
      | some p => some (c :: p.1, p.2)
      | none => none

/-- `DECODE_RX(r)`, its tests in exactly this order (R152). -/
def decodeRx (cfg : Cfg) (r : Bytes) : Envelope :=
  match splitColon r with
  | none => .malformed .noLenSep
  | some p => match decparse p.1 with
    | none => .malformed .badLen
    | some n => match hexdec cfg p.2 with
      | .error x => .malformed x
      | .ok b =>
        if b.length ≠ n then .malformed .lenMismatch
        else if n < frameMin ∨ frameMax < n then .malformed .badSize
        else .rxFrame b

/-- `DECODE_TX(h)` (R153). -/
def decodeTx (cfg : Cfg) (h : Bytes) : Envelope :=
  match hexdec cfg h with
  | .error x => .malformed x
  | .ok b => if b.length < frameMin ∨ frameMax < b.length then .malformed .badSize else .txFrame b

/-- `DEC.LINE(t)` (R150 to R155). -/
def decodeLine (cfg : Cfg) (t : Bytes) : Envelope :=
  match lineKind t with
  | .blank => .blank
  | .rx => decodeRx cfg (t.drop 3)
  | .tx => decodeTx cfg (t.drop 3)
  | .ready => .token .ready t
  | .pong => .token .pong t
  | .ping => .token .ping t
  | .other => .token .other t

/-- The event list that corresponds to the envelope of the line `t`, by the `case` of R170. A malformed envelope is
raised as `MalformedEnvelope` with the raw text (R261). -/
def envelopeEvents (t : Bytes) : Envelope → List Event
  | .blank => []
  | .rxFrame f => [.envRx f]
  | .txFrame f => [.envTx f]
  | .token k text => [.envToken k text]
  | .malformed r => [.malformedEnvelope r t]

/-- DEC.PUSH of a byte that is not the terminator (R170, R171). -/
def pushContent (c : Byte) (s : State) : Effect :=
  if s.llen < lineCap then
    match memWrite s .lb s.llen [c] with
    | .ok s1 => emit (s1.setLlen (s1.llen + 1)) []
    | .error x => .error x
  else emit (s.setLovf (lovfAfterByte s)) []

/-- DEC.PUSH of the terminator (R170): the line is read, the buffer cleared, the line decoded. An overlong line is
reported before it is looked at (R171, R271). -/
def pushTerm (s : State) : Effect :=
  match memRead s .lb 0 s.llen with
  | .error x => .error x
  | .ok t =>
    let s1 := (s.setLlen 0).setLovf false
    if s.lovf then raise s1 (.malformedEnvelope .overlong t)
    else emit s1 (envelopeEvents t (decodeLine s.cfg t))

/-- The statements of DEC.PUSH (R170). -/
def pushByte (c : Byte) (s : State) : Effect := if c = lineTerm then pushTerm s else pushContent c s

/-- `DEC.PUSHS`, the pseudo-operation of R90: one push after another, the event lists concatenated in order. -/
def pushBytes (v : Bytes) (s : State) : Effect :=
  match v with
  | [] => emit s []
  | c :: cs => match pushByte c s with
    | .error x => .error x
    | .ok p => match pushBytes cs p.1 with
      | .error x => .error x
      | .ok q => emit q.1 (p.2 ++ q.2)

/-- DEC.LINE (R150). -/
def execDecLine (t : Bytes) (s : State) : Host.Outcome State Fault Refusal :=
  accept s (decLineDefect t) (returns s (.envelope (decodeLine s.cfg t)))

/-- DEC.PUSH (R170). -/
def execDecPush (c : Byte) (s : State) : Host.Outcome State Fault Refusal :=
  accept s none (finish (pushByte c s))

end Sys2Proof.Machine
end

