-- ==== Sys2Proof/Machine/Enc.lean ====
section
/-! DEFINITION. The hex-ASCII line encoder ENC (41_hex_encode.md): ENC.RX, ENC.TX, ENC.TOK. Pure. Every line carries its
terminator (R130). -/

namespace Sys2Proof.Machine

/-- `ENC.RX(f)` (R131). -/
def encRxLine (f : Frame) : Bytes := pfxRx ++ dec f.length ++ [colon] ++ hexstr f ++ [lineTerm]

/-- `ENC.TX(f)` (R132). -/
def encTxLine (f : Frame) : Bytes := pfxTx ++ hexstr f ++ [lineTerm]

/-- The text of a token; the version token is the parameter `VERSION_TOKEN` (R133). -/
def tokenText (cfg : Cfg) : TokenId → Bytes
  | .ready => tokReady
  | .pong => tokPong
  | .ping => tokPing
  | .version => cfg.versionToken

/-- `ENC.TOK(k)` (R133). -/
def encTokLine (cfg : Cfg) (k : TokenId) : Bytes := tokenText cfg k ++ [lineTerm]

/-- ENC.RX (R131). -/
def execEncRx (f : Frame) (s : State) : Host.Outcome State Fault Refusal :=
  accept s (frameDefect f) (returns s (.line (encRxLine f)))

/-- ENC.TX (R132). -/
def execEncTx (f : Frame) (s : State) : Host.Outcome State Fault Refusal :=
  accept s (frameDefect f) (returns s (.line (encTxLine f)))

/-- ENC.TOK (R133). -/
def execEncTok (k : TokenId) (s : State) : Host.Outcome State Fault Refusal :=
  accept s none (returns s (.line (encTokLine s.cfg k)))

end Sys2Proof.Machine
end

