-- ==== Sys2Proof/Machine/Fcl.lean ====
section
/-! DEFINITION. The frame classifier's operation FCL.CLASS (43_frame_classifier.md). Pure; it looks at no state (R186). -/

namespace Sys2Proof.Machine

/-- FCL.CLASS (R181). -/
def execFclClass (f : Frame) (s : State) : Host.Outcome State Fault Refusal :=
  accept s (frameDefect f) (returns s (.cls (classify s.cfg f)))

end Sys2Proof.Machine
end

