-- ==== Sys2Proof/Machine/Rsm.lean ====
section
/-! DEFINITION. The reassembler RSM (44_reassembler.md): RSM.FRAME, the fragment step, the canonical-length detector and
the classification of a completed payload. -/

namespace Sys2Proof.Machine

/-- `MORE(f)`: the continuation flag byte lies in `CONT_MORE_SET` (R204). -/
def moreFlag (cfg : Cfg) (f : Frame) : Bool :=
  match f[cfg.contOff]? with
  | some b => cfg.contMoreSet.getLsbD b.toNat
  | none => false

/-- `PAYLOAD(f)`: what follows the header (R204). -/
def payload (cfg : Cfg) (f : Frame) : Bytes := f.drop cfg.hdrSize

/-- The detector (R212): the state after it and the event it emits. -/
def detect (p : Bytes) (s : State) : State × List Event :=
  if detectorFires s p then ((s.setCsl p.length).setCslValid true, [.canonicalLengthPinned p.length])
  else (s, [])

/-- A status-only payload (R213). -/
def isStatusOnly (s : State) (p : Bytes) : Bool :=
  s.cslValid && decide (p.length = s.csl) && p[0]? == some s.cfg.statusMark

/-- The length condition of a combined payload (R214). -/
def inCombinedBracket (s : State) (p : Bytes) : Bool :=
  s.cslValid && decide (s.cfg.combMin ≤ p.length) && decide (p.length ≤ s.cfg.combMax) && decide (s.csl < p.length)

/-- The split markers at the split index `k` (R214). -/
def splitMarksOk (cfg : Cfg) (p : Bytes) (k : Nat) : Bool :=
  p[k]? == some cfg.splitM0 && p[k + 1]? == some cfg.splitM1

/-- COMPLETE (R211): the detector, then the classification, which sees what the detector has just written. -/
def complete (p : Bytes) (s : State) : Effect :=
  let d := detect p s
  if isStatusOnly d.1 p then emit d.1 (d.2 ++ [.statusOnly p])
  else if inCombinedBracket d.1 p && splitMarksOk s.cfg p (p.length - d.1.csl) then
    emit d.1 [.combined (p.take (p.length - d.1.csl)) (p.drop (p.length - d.1.csl))]
  else raise d.1 (.unrecognizedMessageShape p)

/-- The fragment that does not fit (R208): nothing of it is stored, the partial buffer is discarded. -/
def overflow (more : Bool) (p : Bytes) (s : State) : Effect :=
  raise ((s.setRlen 0).setRst (if more then .resync else .idle)) (.reassemblyOverflow s.rlen p.length)

/-- A fragment accepted in `IDLE` or `ACCUM` (R205, R207, R208, R210). -/
def acceptFragment (more : Bool) (p : Bytes) (s : State) : Effect :=
  if s.cfg.bufCap < s.rlen + p.length then overflow more p s
  else match memWrite s .rb s.rlen p with
    | .error x => .error x
    | .ok s1 =>
      let s2 := s1.setRlen (s1.rlen + p.length)
      if more then emit (s2.setRst .accum) []
      else match memRead s2 .rb 0 s2.rlen with
        | .error x => .error x
        | .ok q => complete q ((s2.setRlen 0).setRst .idle)

/-- FRAG_STEP, the state machine's transition on a fragment (R205, R209). -/
def fragStep (f : Frame) (s : State) : Effect :=
  match s.rst with
  | .resync => emit (if moreFlag s.cfg f then s else s.setRst .idle) []
  | .idle => acceptFragment (moreFlag s.cfg f) (payload s.cfg f) s
  | .accum => acceptFragment (moreFlag s.cfg f) (payload s.cfg f) s

/-- The optional receive check, made before anything else (R203, R262). -/
def verified (f : Frame) (s : State) (k : Effect) : Effect :=
  if s.cfg.rxVerify && !chkVfy f then raise s (.checksumMismatch f) else k

/-- What the reassembler does with a frame of class `k` (R201, R202). -/
def receiveClass (k : FrameClass) (f : Frame) (s : State) : Effect :=
  match k with
  | .goKeepalive => emit s [.message .goKeepalive f]
  | .shape c => emit s [.message (.shape c) f]
  | .fragment => fragStep f s
  | .unrecognized => raise s (.unrecognizedMessageShape f)

/-- The statements of RSM.FRAME (R201). -/
def receiveFrame (f : Frame) (s : State) : Effect := verified f s (receiveClass (classify s.cfg f) f s)

/-- RSM.FRAME (R201). -/
def execRsmFrame (f : Frame) (s : State) : Host.Outcome State Fault Refusal :=
  accept s (frameDefect f) (finish (receiveFrame f s))

end Sys2Proof.Machine
end

