-- ==== Sys2Proof/Machine/FrameRows.lean ====
section
/-! DEFINITION. The four frame shapes of the table (30_encoding.md rule R82) as instructions: a received frame of that
shape reaches the reassembler, and what the arm of RSM.FRAME for its class does is done (44_reassembler.md rules R201 to
R203; DEDUCED, log 7). A frame that is not of the row's shape is no such instruction. -/

namespace Sys2Proof.Machine

/-- FRAME_GO (R182, R202). -/
def execFrameGo (f : Frame) (s : State) : Host.Outcome State Fault Refusal :=
  accept s (frameKindDefect s.cfg .goKeepalive f) (finish (verified f s (receiveClass .goKeepalive f s)))

/-- FRAME_SHAPE(k) (R183, R202). -/
def execFrameShape (k : ShapeClass) (f : Frame) (s : State) : Host.Outcome State Fault Refusal :=
  accept s (frameKindDefect s.cfg (.shape k) f) (finish (verified f s (receiveClass (.shape k) f s)))

/-- FRAME_FRAG (R184, R205). -/
def execFrameFrag (f : Frame) (s : State) : Host.Outcome State Fault Refusal :=
  accept s (frameKindDefect s.cfg .fragment f) (finish (verified f s (receiveClass .fragment f s)))

/-- FRAME_UNRECOGNIZED (R185, R202). -/
def execFrameUnrecognized (f : Frame) (s : State) : Host.Outcome State Fault Refusal :=
  accept s (frameKindDefect s.cfg .unrecognized f) (finish (verified f s (receiveClass .unrecognized f s)))

end Sys2Proof.Machine
end

