-- ==== Sys2Proof/Machine/LineRows.lean ====
section
/-! DEFINITION. The seven line kinds of the table (30_encoding.md rule R77) as instructions of the byte stream: the whole
line, its terminator last, arrives at the line decoder, `DEC.PUSHS (content ++ "\n")` of rule R90 (DEDUCED, log 6). What comes
of it is 30_encoding.md rule R87 and 42_hex_decode.md rules R151 to R158, R170 and R171. -/

namespace Sys2Proof.Machine

/-- The line with content `t` arrives (R70, R90). -/
def lineArrives (t : Bytes) (s : State) : Host.Outcome State Fault Refusal :=
  finish (pushBytes (t ++ [lineTerm]) s)

/-- LINE_BLANK (R151). -/
def execLineBlank (s : State) : Host.Outcome State Fault Refusal := accept s none (lineArrives [] s)

/-- LINE_RX (R152): `r` follows the prefix. -/
def execLineRx (r : Bytes) (s : State) : Host.Outcome State Fault Refusal :=
  accept s (contentDefect r) (lineArrives (pfxRx ++ r) s)

/-- LINE_TX (R153): `h` follows the prefix. -/
def execLineTx (h : Bytes) (s : State) : Host.Outcome State Fault Refusal :=
  accept s (contentDefect h) (lineArrives (pfxTx ++ h) s)

/-- LINE_TOK_READY (R154). -/
def execLineTokReady (s : State) : Host.Outcome State Fault Refusal := accept s none (lineArrives tokReady s)

/-- LINE_TOK_PONG (R154). -/
def execLineTokPong (s : State) : Host.Outcome State Fault Refusal := accept s none (lineArrives tokPong s)

/-- LINE_TOK_PING (R154). -/
def execLineTokPing (s : State) : Host.Outcome State Fault Refusal := accept s none (lineArrives tokPing s)

/-- LINE_TOK_OTHER (R155). -/
def execLineTokOther (t : Bytes) (s : State) : Host.Outcome State Fault Refusal :=
  accept s (otherDefect t) (lineArrives t s)

end Sys2Proof.Machine
end

