-- ==== Sys2Proof/Machine/Sys.lean ====
section
/-! DEFINITION. The system operations (45_system_ops.md): PIPE.PUSH, SYS.NEWSESSION, SYS.RESET, SYS.STATUS, and the reserved
operation codes (30_encoding.md rule R88). -/

namespace Sys2Proof.Machine

/-- What the pipeline does with one event of DEC.PUSH: a received frame goes to the reassembler and its `EnvRx` is consumed;
any other event passes through (R240). -/
def pipeEvent (e : Event) (s : State) : Effect :=
  match e with
  | .envRx f => receiveFrame f s
  | .envTx f => emit s [.envTx f]
  | .envToken k t => emit s [.envToken k t]
  | .message c f => emit s [.message c f]
  | .canonicalLengthPinned n => emit s [.canonicalLengthPinned n]
  | .statusOnly p => emit s [.statusOnly p]
  | .combined a b => emit s [.combined a b]
  | .malformedEnvelope r t => emit s [.malformedEnvelope r t]
  | .checksumMismatch f => emit s [.checksumMismatch f]
  | .unrecognizedMessageShape r => emit s [.unrecognizedMessageShape r]
  | .reassemblyOverflow a b => emit s [.reassemblyOverflow a b]

/-- The loop of R240 over the events of DEC.PUSH, the event lists concatenated. -/
def pipeEvents (es : List Event) (s : State) : Effect :=
  match es with
  | [] => emit s []
  | e :: rest => match pipeEvent e s with
    | .error x => .error x
    | .ok p => match pipeEvents rest p.1 with
      | .error x => .error x
      | .ok q => emit q.1 (p.2 ++ q.2)

/-- The statements of PIPE.PUSH (R240). -/
def pipeByte (c : Byte) (s : State) : Effect :=
  match pushByte c s with
  | .error x => .error x
  | .ok p => pipeEvents p.2 p.1

/-- PIPE.PUSH (R240). -/
def execPipePush (c : Byte) (s : State) : Host.Outcome State Fault Refusal :=
  accept s none (finish (pipeByte c s))

/-- SYS.NEWSESSION (R245): the line decoder is not touched (R25). -/
def execSysNewsession (s : State) : Host.Outcome State Fault Refusal :=
  accept s none (finish (emit s.newSession []))

/-- SYS.RESET (R248). -/
def execSysReset (s : State) : Host.Outcome State Fault Refusal :=
  accept s none (finish (emit s.hardReset []))

/-- The tuple of R250. -/
def statusOf (s : State) : Status := ⟨s.rst, s.rlen, s.cslValid, s.csl, s.llen, s.lovf⟩

/-- SYS.STATUS (R250). -/
def execSysStatus (s : State) : Host.Outcome State Fault Refusal :=
  accept s none (returns s (.status (statusOf s)))

/-- RESERVED.D: "presenting a reserved `op` is refused" (R88). -/
def execReservedD (s : State) : Host.Outcome State Fault Refusal :=
  accept s none (.refused (.reservedOperation 0xD))

/-- RESERVED.E: "presenting a reserved `op` is refused" (R88). -/
def execReservedE (s : State) : Host.Outcome State Fault Refusal :=
  accept s none (.refused (.reservedOperation 0xE))

end Sys2Proof.Machine
end

