-- ==== Sys2Proof/Machine/Dispatch.lean ====
section
/-! DEFINITION. The dispatcher: one arm a constructor of Instr, each one direct call of its meaning. -/

namespace Sys2Proof.Machine

def exec (i : Instr) (s : State) : Host.Outcome State Fault Refusal :=
  match i with
  | .sysStatus => Sys2Proof.Machine.execSysStatus s
  | .chkGen f => Sys2Proof.Machine.execChkGen f s
  | .chkVfy f => Sys2Proof.Machine.execChkVfy f s
  | .chkSeal f => Sys2Proof.Machine.execChkSeal f s
  | .encRx f => Sys2Proof.Machine.execEncRx f s
  | .encTx f => Sys2Proof.Machine.execEncTx f s
  | .encTok k => Sys2Proof.Machine.execEncTok k s
  | .decLine t => Sys2Proof.Machine.execDecLine t s
  | .decPush c => Sys2Proof.Machine.execDecPush c s
  | .fclClass f => Sys2Proof.Machine.execFclClass f s
  | .rsmFrame f => Sys2Proof.Machine.execRsmFrame f s
  | .pipePush c => Sys2Proof.Machine.execPipePush c s
  | .sysNewsession => Sys2Proof.Machine.execSysNewsession s
  | .reservedD => Sys2Proof.Machine.execReservedD s
  | .reservedE => Sys2Proof.Machine.execReservedE s
  | .sysReset => Sys2Proof.Machine.execSysReset s
  | .lineBlank => Sys2Proof.Machine.execLineBlank s
  | .lineRx r => Sys2Proof.Machine.execLineRx r s
  | .lineTx h => Sys2Proof.Machine.execLineTx h s
  | .lineTokReady => Sys2Proof.Machine.execLineTokReady s
  | .lineTokPong => Sys2Proof.Machine.execLineTokPong s
  | .lineTokPing => Sys2Proof.Machine.execLineTokPing s
  | .lineTokOther t => Sys2Proof.Machine.execLineTokOther t s
  | .frameGo f => Sys2Proof.Machine.execFrameGo f s
  | .frameShape k f => Sys2Proof.Machine.execFrameShape k f s
  | .frameFrag f => Sys2Proof.Machine.execFrameFrag f s
  | .frameUnrecognized f => Sys2Proof.Machine.execFrameUnrecognized f s

end Sys2Proof.Machine
end

