-- ==== Sys2Proof/Machine/Inputs.lean ====
section
/-! DEFINITION. What the block does with one thing the environment presents (10_state.md rule R34: what happens next is the
operation presented; 70_reset_and_hazards.md rules R290, R292, R297). -/

namespace Sys2Proof.Machine

/-- A transaction of the port: not accepted while reset is asserted (R290); otherwise decoded and performed. -/
def takeTransaction (t : Transaction) (s : State) : Host.Outcome State Fault Refusal :=
  if s.resetHeld then .refused .heldInReset
  else match decode s.cfg t with
    | .ok i => exec i s
    | .error d => if s.cfg.wf then .refused (.operand d) else .refused .illFormedConfig

/-- A change of the reset input (R290): asserting it has the effect of SYS.RESET on the state; releasing it needs a
well-formed configuration (R9, R297). -/
def takeResetLine (asserted : Bool) (s : State) : Host.Outcome State Fault Refusal :=
  if asserted then .next { s.hardReset with resetHeld := true }
  else if s.cfg.wf then .next { s with resetHeld := false }
  else .refused .illFormedConfig

/-- A configuration supplied to the static input: only while reset is asserted (R292), and only a well-formed one (R9).
The reassembly buffer has the new capacity; its contents are unspecified (R291, log 10). -/
def takeCfg (c : Cfg) (s : State) : Host.Outcome State Fault Refusal :=
  if s.resetHeld then
    if c.wf then .next { s.hardReset with cfg := c, rb := [] } else .refused .illFormedConfig
  else .refused .configOutsideReset

/-- One input. -/
def takeInput (x : Input) (s : State) : Host.Outcome State Fault Refusal :=
  match x with
  | .present t => takeTransaction t s
  | .resetLine b => takeResetLine b s
  | .supplyCfg c => takeCfg c s

end Sys2Proof.Machine
end

