-- ==== Sys2Proof/Machine/Step.lean ====
section
/-! DEFINITION. One step of the machine: the oldest thing the environment has presented is taken from the port and acted
on (20_memory.md rule R60). Where nothing is presented nothing happens (log 11). -/

namespace Sys2Proof.Machine

/-- One step. -/
def step (s : State) : Host.Outcome State Fault Refusal :=
  match s.port with
  | [] => .next s
  | x :: rest => takeInput x { s with port := rest }

/-- `s` with the instruction of the table word presented next, and reset released, so that the very next step performs it
(log 1, log 12). A word that stands for no transaction presents nothing. -/
def State.withFetchWord (s : State) (nbits w : Nat) : State :=
  match tableTransaction nbits w with
  | none => s
  | some t => { s with port := .present t :: s.port, resetHeld := false }

end Sys2Proof.Machine
end

