-- ==== Sys2Proof/Machine/Pseudo.lean ====
section
/-! DEFINITION. The pseudo-operations of 30_encoding.md rule R90 as lists of instructions, and the performance of a list of
operations one after another (20_memory.md rule R60). -/

namespace Sys2Proof.Machine

/-- Operations performed in order, each to completion; a fault or a refusal ends the list (R60). -/
def execAll (is : List Instr) (s : State) : Host.Outcome State Fault Refusal :=
  match is with
  | [] => .next s
  | i :: rest => match exec i s with
    | .next s1 => execAll rest s1
    | .fault x => .fault x
    | .refused r => .refused r

/-- `DEC.PUSHS v` (R90). -/
def decPushs (v : Bytes) : List Instr := v.map .decPush

/-- `PIPE.PUSHS v` (R90). -/
def pipePushs (v : Bytes) : List Instr := v.map .pipePush

/-- `TXCMD f = ENC.TX (CHK.SEAL f)` (R90, R241). -/
def txCmd (f : Frame) : List Instr := [.chkSeal f, .encTx (chkSeal f)]

/-- `RSM.FRAMES fs` (R90). -/
def rsmFrames (fs : List Frame) : List Instr := fs.map .rsmFrame

/-- The events of a list of deliveries, concatenated in order (R61, R90). -/
def eventsOf (ds : List Delivery) : List Event := ds.flatMap Delivery.events

end Sys2Proof.Machine
end

