-- ==== Sys2Proof/Safety.lean ====
section
/-! DEFINITION. What counts as a legal state: the invariants of 10_state.md rules R20 to R31 (R29 among them), the canonical
form of the two buffers, and a well-formed configuration (00_scope.md rule R9). And what counts as a safe outcome. -/

namespace Sys2Proof.Machine

/-- Every listed index of a buffer exists (R50). -/
def Memory.below (m : Memory) (n : Nat) : Bool := m.all fun c => decide (c.1 < n)

/-- The states the spec's rules keep to. -/
structure State.Inv (s : State) : Prop where
  /-- R9: all rules are stated for a well-formed configuration. -/
  cfgWf      : s.cfg.wf = true
  /-- The canonical form of the two buffers, and R50: no byte stands outside them. -/
  lbWf       : s.lb.wf = true
  rbWf       : s.rb.wf = true
  lbBelow    : s.lb.below lineCap = true
  rbBelow    : s.rb.below s.cfg.bufCap = true
  /-- R23. -/
  llenLe     : s.llen ≤ lineCap
  /-- R24. -/
  lovfFull   : s.lovf = true → s.llen = lineCap
  /-- R20, R22: the live bytes of `LB` are there, and none is the terminator. -/
  lbLive     : ∀ i, i < s.llen → ∃ b, s.lb.read i = some b ∧ b ≠ lineTerm
  /-- R27, R29. -/
  rlenLe     : s.rlen ≤ s.cfg.bufCap
  /-- R26: the live bytes of `RB` are there. -/
  rbLive     : ∀ i, i < s.rlen → ∃ b, s.rb.read i = some b
  /-- R28, R29. -/
  idleEmpty  : s.rst = .idle → s.rlen = 0
  resyncEmpty : s.rst = .resync → s.rlen = 0
  /-- R29, R30. -/
  cslPinned  : s.cslValid = true → s.cfg.detMin ≤ s.csl ∧ s.csl ≤ s.cfg.detMax
  cslUnset   : s.cslValid = false → s.csl = 0

/-- The values after reset (R291) of the six registers. -/
def State.resetValues (s : State) : Prop :=
  s.llen = 0 ∧ s.lovf = false ∧ s.rlen = 0 ∧ s.rst = .idle ∧ s.csl = 0 ∧ s.cslValid = false

/-- While the reset input is asserted the registers hold their values after reset (R290). It stands beside `State.Inv` and not
in it: an operation is given its meaning by `exec` whatever the level of the input, which only the step reads. -/
def State.heldHasResetValues (s : State) : Prop := s.resetHeld = true → s.resetValues

/-- An outcome that is no fault: a safe step may go on or be refused. -/
def noFault (o : Host.Outcome State Fault Refusal) : Prop := ∀ x, o ≠ .fault x

/-- An outcome that is a next state. -/
def goesOn (o : Host.Outcome State Fault Refusal) : Prop := ∃ t, o = .next t

end Sys2Proof.Machine
end

