-- ==== Sys2Proof/Certificates/Slice0/Obligations.lean ====
section
/-! DEFINITION. The statements for the provers. Each docstring names the rule of spec/ it formalises. "Deliver" in them is
`State.deliver`: the operation is done, its value and event list go to the environment and nothing else of the state
changes. Where a statement says what an instruction encodes to, the code is the rule's (R84); that an operand stands at the
port as a byte sequence, one byte for a stream byte or a token id and none where there is no operand, is the model's
DESIGN CHOICE (log 12), and no rule's. -/

namespace Sys2Proof

open Machine

/-! ## Words the statements use -/

/-- A legal frame operand (R6, R13). -/
abbrev legalFrame (f : Frame) : Prop := 1 ≤ f.length ∧ f.length ≤ 128

/-- An illegal frame operand (R13, R87). -/
abbrev illegalFrame (f : Frame) : Prop := f.length = 0 ∨ 128 < f.length

/-- A line content the stream can carry (R70). -/
abbrev contentOk (t : Bytes) : Prop := lineTerm ∉ t

/-- The frame is not dropped by the optional receive check (R203). -/
abbrev passesCheck (cfg : Cfg) (f : Frame) : Prop := cfg.rxVerify = true → chkVfy f = true

/-- The value of a string of decimal digits, most significant first: the sum of R14. -/
def decimalValue : Bytes → Nat
  | [] => 0
  | c :: cs => (c.toNat - 0x30) * 10 ^ cs.length + decimalValue cs

/-- A string of decimal digits by their codes (R14). -/
abbrev decimalText (v : Bytes) : Prop := ∀ c, c ∈ v → 0x30 ≤ c.toNat ∧ c.toNat ≤ 0x39

/-- `v` is the content of the live range of a buffer of which `n` bytes are live (R53). -/
abbrev liveBytes (m : Memory) (n : Nat) (v : Bytes) : Prop := v.length = n ∧ ∀ i, i < n → m.read i = v[i]?

/-- The buffer `m'` is `m` with the bytes `v` written from index `a` on: every other byte reads as before (R12). -/
def writtenAt (m m' : Memory) (a : Nat) (v : Bytes) : Prop :=
  (∀ i, i < v.length → m'.read (a + i) = v[i]?) ∧ (∀ x, x < a ∨ a + v.length ≤ x → m'.read x = m.read x)

end Sys2Proof

open Sys2Proof Sys2Proof.Machine

/-! ## Decoding and encoding -/

/-- Decode of encode is the instruction, for every constructor and every operand it admits: no bit of an encoding is
dropped (R77, R82, R84). -/
def Obligations.DecodeOfEncodeIsInstruction : Prop :=
  ∀ (cfg : Cfg) (i : Instr), i.wf cfg = true → decode cfg (encode i) = .ok i

/-- The other direction: what the decoder reads is well-formed and its encoding is what was presented, so each
transaction has one reading (R77, R82, R84). -/
def Obligations.DecodedTransactionReencodes : Prop :=
  ∀ (cfg : Cfg) (t : Transaction) (i : Instr), decode cfg t = .ok i → i.wf cfg = true ∧ encode i = t

/-- A few words, written out from the tables of R84, R72, R74, R80 and R79; 0x03 is `VERSION` by R86. The operand bytes of
the four operation words (a frame as its bytes, a stream byte or a token id as one byte, no operand as the empty sequence)
are the model's DESIGN CHOICE, log 12. -/
def Obligations.WrittenOutWordsDecode : Prop :=
  decode cfgT1 (.op 0b0001#4 [0x12#8, 0x34#8]) = .ok (.chkGen [0x12#8, 0x34#8]) ∧
  decode cfgT1 (.op 0b0110#4 [0x03#8]) = .ok (.encTok .version) ∧
  decode cfgT1 (.op 0b1000#4 [0x0A#8]) = .ok (.decPush 0x0A#8) ∧
  decode cfgT1 (.op 0b1101#4 []) = .ok .reservedD ∧
  decode cfgT1 (.line [0x52#8, 0x58#8, 0x3A#8, 0x31#8]) = .ok (.lineRx [0x31#8]) ∧
  decode cfgT1 (.line [0x50#8, 0x49#8, 0x4E#8, 0x47#8]) = .ok .lineTokPing ∧
  decode cfgT1 (.frame (List.replicate 13 0x00#8 ++ [0x47#8, 0x4F#8])) =
    .ok (.frameGo (List.replicate 13 0x00#8 ++ [0x47#8, 0x4F#8])) ∧
  decode cfgT1 (.frame [0x00#8, 0x00#8, 0xA5#8, 0x01#8, 0x00#8, 0x00#8]) =
    .ok (.frameFrag [0x00#8, 0x00#8, 0xA5#8, 0x01#8, 0x00#8, 0x00#8])

/-- "presenting a reserved `op` is refused" (R88), in every state with a well-formed configuration, and "`RST = 3` cannot
occur". -/
def Obligations.ReservedCodesAreRefused : Prop :=
  encode .reservedD = .op 0xD [] ∧ encode .reservedE = .op 0xE [] ∧
  (∀ s : State, s.cfg.wf = true →
    exec .reservedD s = .refused (.reservedOperation 0xD) ∧ exec .reservedE s = .refused (.reservedOperation 0xE)) ∧
  (∀ r : RstState, rstCode r ≠ 3)

/-! ## The step -/

/-- A step performs the oldest transaction presented: it is taken from the port and the instruction it decodes to is
executed; one that decodes to none is refused by name (R60; log 1). -/
def Obligations.StepPerformsOldestTransaction : Prop :=
  ∀ (s : State) (t : Transaction) (rest : List Input),
    s.port = .present t :: rest → s.resetHeld = false → s.cfg.wf = true →
    (∀ i, decode s.cfg t = .ok i → step s = exec i { s with port := rest }) ∧
    (∀ d, decode s.cfg t = .error d → step s = .refused (.operand d))

/-- Where nothing is presented nothing happens. The model's choice (log 11). -/
def Obligations.StepIdlesWhenNothingPresented : Prop := ∀ s : State, s.port = [] → step s = .next s

/-- The reset input (R290): asserting it takes the transition of SYS.RESET, holds the block, and returns nothing; while it is
asserted no transaction is accepted (its refusal by name is the model's, log 9); releasing it writes nothing, so a block
whose registers hold the values of R291 while it is held (StepKeepsRegistersInReset) has them when it is released; its release
under an ill-formed configuration is refused by name (R9, R297; log 9). -/
def Obligations.ResetInputActsAsReset : Prop :=
  ∀ (s : State) (rest : List Input),
    (s.port = .resetLine true :: rest →
      step s = .next { s with port := rest, llen := 0, lovf := false, rlen := 0, rst := .idle, csl := 0,
                              cslValid := false, resetHeld := true }) ∧
    (∀ t, s.port = .present t :: rest → s.resetHeld = true → step s = .refused .heldInReset) ∧
    (s.port = .resetLine false :: rest → s.cfg.wf = true → step s = .next { s with port := rest, resetHeld := false }) ∧
    (s.port = .resetLine false :: rest → s.cfg.wf = false → step s = .refused .illFormedConfig) ∧
    (s.port = .resetLine false :: rest → s.cfg.wf = true → s.resetHeld = true → s.heldHasResetValues →
      ∃ t, step s = .next t ∧ t.resetHeld = false ∧ t.llen = 0 ∧ t.lovf = false ∧ t.rlen = 0 ∧ t.rst = .idle ∧
        t.csl = 0 ∧ t.cslValid = false)

/-- The configuration input (R292, R297, R9): it changes only while reset is asserted, and only to a well-formed record. One
that is supplied so is taken: the registers hold their values after reset, and the reassembly buffer, which has another
capacity, holds nothing. An ill-formed one, and one supplied outside reset, is refused by name. That a configuration is
supplied by an entry of the port, the names of the refusals and the fresh reassembly buffer are the model's (log 10). -/
def Obligations.ConfigurationChangesOnlyInReset : Prop :=
  (∀ s t : State, step s = .next t → t.cfg ≠ s.cfg →
    s.resetHeld = true ∧ t.resetHeld = true ∧ t.cfg.wf = true ∧ ∃ rest, s.port = .supplyCfg t.cfg :: rest) ∧
  (∀ (s : State) (c : Cfg) (rest : List Input), s.port = .supplyCfg c :: rest →
    (s.resetHeld = true → c.wf = true →
      step s = .next { s with port := rest, cfg := c, rb := [], llen := 0, lovf := false, rlen := 0, rst := .idle,
                              csl := 0, cslValid := false }) ∧
    (s.resetHeld = true → c.wf = false → step s = .refused .illFormedConfig) ∧
    (s.resetHeld = false → step s = .refused .configOutsideReset))

/-- No operation writes the configuration, the reset input or what is still presented: "its configuration is the static
record `Cfg`, which no operation can change" (R36), and every operation done delivers exactly once (R13). -/
def Obligations.NoOperationWritesInputs : Prop :=
  ∀ (i : Instr) (s t : State), exec i s = .next t →
    t.cfg = s.cfg ∧ t.resetHeld = s.resetHeld ∧ t.port = s.port ∧ ∃ d, t.delivered = s.delivered ++ [d]

/-- An operation is refused for a stated reason only: the configuration is ill-formed (R9), the operand violates its
precondition (R13 (b)), or the code is reserved (R88). -/
def Obligations.RefusedOnlyForStatedReason : Prop :=
  ∀ (i : Instr) (s : State) (r : Refusal), exec i s = .refused r →
    (s.cfg.wf = false ∧ r = .illFormedConfig) ∨
    (∃ d, i.defect s.cfg = some d ∧ r = .operand d) ∨
    (i = .reservedD ∧ r = .reservedOperation 0xD) ∨ (i = .reservedE ∧ r = .reservedOperation 0xE)

/-- The state after the presented operations is the fold of their transitions, in the order presented (R60): as many steps as
operations are presented perform them all. -/
def Obligations.PresentedOperationsRunInOrder : Prop :=
  ∀ (is : List Instr) (s t : State) (rest : List Input), s.cfg.wf = true → s.resetHeld = false →
    (∀ i, i ∈ is → i.wf s.cfg = true) →
    s.port = is.map (fun i => .present (encode i)) ++ rest →
    execAll is { s with port := rest } = .next t →
    core.run is.length s = .next t

/-! ## The invariant -/

/-- The values after reset (R291), under every configuration; the contents of the two buffers are unspecified. -/
def Obligations.ResetLeavesStatedValues : Prop :=
  State.reset = State.resetWith State.reset.cfg ∧
  ∀ c : Cfg, (State.resetWith c).llen = 0 ∧ (State.resetWith c).lovf = false ∧ (State.resetWith c).rlen = 0 ∧
    (State.resetWith c).rst = .idle ∧ (State.resetWith c).cslValid = false ∧ (State.resetWith c).csl = 0

/-- The legal states of R20 to R31 hold after reset, under every well-formed configuration (R291). -/
def Obligations.ResetStateIsLegal : Prop :=
  State.reset.Inv ∧ ∀ c : Cfg, c.wf = true → (State.resetWith c).Inv

/-- Every step keeps a legal state legal (R29 and the invariants of R22 to R31). -/
def Obligations.StepKeepsLegalState : Prop := ∀ s t : State, s.Inv → step s = .next t → t.Inv

/-- From a legal state no step reads or writes outside a buffer or reads a byte nothing has written (R22, R26, R50, R53). -/
def Obligations.LegalStateNeverFaults : Prop := ∀ s : State, s.Inv → noFault (step s)

/-- In a legal state the lengths fit the registers of R8 and R20: `LLEN` 9 bits, `RLEN` and `CSL` `W_RLEN` bits. -/
def Obligations.LegalLengthsFitRegisters : Prop :=
  ∀ s : State, s.Inv → s.llen < 2 ^ wLlen ∧ s.rlen < 2 ^ wRlen s.cfg ∧ s.csl < 2 ^ wRlen s.cfg

/-- Every instruction but the two reserved codes completes: in a legal state, a well-formed instruction has a next state,
and it is legal. It names every constructor of `Instr` but `reservedD` and `reservedE` (R13 (a), R260). -/
def Obligations.EveryWellFormedInstructionCompletes : Prop :=
  ∀ (i : Instr) (s : State), s.Inv → i.wf s.cfg = true → i ≠ .reservedD → i ≠ .reservedE →
    ∃ t, exec i s = .next t ∧ t.Inv

/-! ## CHK -/

/-- CHK.GEN (R110, R111): the exclusive-or of all bytes but the last; the last byte never matters; a frame of 0 or of more
than 128 bytes is refused. -/
def Obligations.ChkGenReturnsXorOfCoveredBytes : Prop :=
  (∀ f : Frame, encode (.chkGen f) = .op 0x1 f) ∧
  (∀ (s : State) (f : Frame), s.cfg.wf = true → legalFrame f →
    exec (.chkGen f) s =
      .next (s.deliver (some (.byte ((f.take (f.length - 1)).foldl (fun acc b => acc ^^^ b) 0x00#8))) [])) ∧
  (∀ (g : Frame) (x y : Byte), chkGen (g ++ [x]) = chkGen (g ++ [y])) ∧
  (∀ (s : State) (f : Frame), s.cfg.wf = true → illegalFrame f →
    exec (.chkGen f) s = .refused (.operand .frameLength))

/-- CHK.VFY (R112): whether the exclusive-or of all bytes is zero, which is whether the last byte is CHK.GEN of the frame. -/
def Obligations.ChkVfyTestsWholeXor : Prop :=
  (∀ f : Frame, encode (.chkVfy f) = .op 0x2 f) ∧
  (∀ (s : State) (f : Frame), s.cfg.wf = true → legalFrame f →
    exec (.chkVfy f) s =
      .next (s.deliver (some (.bool (decide (f.foldl (fun acc b => acc ^^^ b) 0x00#8 = 0x00#8)))) [])) ∧
  (∀ f : Frame, legalFrame f → (chkVfy f = true ↔ f[f.length - 1]? = some (chkGen f))) ∧
  (∀ (s : State) (f : Frame), s.cfg.wf = true → illegalFrame f →
    exec (.chkVfy f) s = .refused (.operand .frameLength))

/-- CHK.SEAL (R113): the last byte is overwritten with CHK.GEN of the frame, the length does not change, sealing is
idempotent, a sealed frame is returned unchanged. -/
def Obligations.ChkSealOverwritesLastByte : Prop :=
  (∀ f : Frame, encode (.chkSeal f) = .op 0x3 f) ∧
  (∀ (s : State) (f : Frame), s.cfg.wf = true → legalFrame f →
    exec (.chkSeal f) s = .next (s.deliver (some (.frame (f.take (f.length - 1) ++ [chkGen f]))) [])) ∧
  (∀ f : Frame, legalFrame f → (chkSeal f).length = f.length ∧ chkSeal (chkSeal f) = chkSeal f ∧
    (chkVfy f = true → chkSeal f = f)) ∧
  (∀ (s : State) (f : Frame), s.cfg.wf = true → illegalFrame f →
    exec (.chkSeal f) s = .refused (.operand .frameLength))

/-- The laws of R114, in its order; law 3 (CHK.GEN is a function) holds of any definition. -/
def Obligations.ChecksumLaws : Prop :=
  (∀ f : Frame, legalFrame f → chkVfy (chkSeal f) = true) ∧
  (∀ f : Frame, legalFrame f → chkGen (chkSeal f) = chkGen f) ∧
  (∀ f f' : Frame, legalFrame f → f' = f → chkGen f' = chkGen f) ∧
  (∀ (g g' : Frame) (c : Byte), legalFrame (g ++ [c]) → g.Perm g' → chkGen (g ++ [c]) = chkGen (g' ++ [c])) ∧
  (∀ (f : Frame) (j : Nat) (b : Byte), legalFrame f → j < f.length → (chkSeal f)[j]? ≠ some b →
    chkVfy ((chkSeal f).set j b) = false) ∧
  (∀ (f : Frame) (j k : Nat) (x y d : Byte), legalFrame f → j < k → k + 1 < f.length →
    (chkSeal f)[j]? = some x → (chkSeal f)[k]? = some y →
    chkVfy (((chkSeal f).set j (x ^^^ d)).set k (y ^^^ d)) = true) ∧
  (∀ (g : Frame) (c : Byte), legalFrame (g ++ [c]) →
    (chkVfy (g ++ [c]) = true ↔ c = g.foldl (fun acc b => acc ^^^ b) 0x00#8))

/-! ## ENC -/

/-- The text helpers of R14 by the character codes of R75 and R76, each clause one helper: `isdec`, `decval`, `ishex`, `hexval`
(0 to 9, A to F, a to f), `hexdig` (uppercase), `hex2` (high nibble first), `hexstr`, `decparse` (exactly the strings of 1 to
3 digits, leading zeros accepted, most significant first), `dec` (digits of that value, and no shorter string of digits has
it). They fit each other: a length of a frame is written as the decimal digits that read back as it, without a leading zero;
a byte is written as two hex digits that read back as it. -/
def Obligations.TextHelpersReadBack : Prop :=
  (∀ c : Byte, isdec c = true ↔ 0x30 ≤ c.toNat ∧ c.toNat ≤ 0x39) ∧
  (∀ c : Byte, isdec c = true → decval c = c.toNat - 0x30) ∧
  (∀ c : Byte, ishex c = true ↔
    0x30 ≤ c.toNat ∧ c.toNat ≤ 0x39 ∨ 0x41 ≤ c.toNat ∧ c.toNat ≤ 0x46 ∨ 0x61 ≤ c.toNat ∧ c.toNat ≤ 0x66) ∧
  (∀ c : Byte, (0x30 ≤ c.toNat → c.toNat ≤ 0x39 → (hexval c).toNat = c.toNat - 0x30) ∧
    (0x41 ≤ c.toNat → c.toNat ≤ 0x46 → (hexval c).toNat = c.toNat - 0x41 + 10) ∧
    (0x61 ≤ c.toNat → c.toNat ≤ 0x66 → (hexval c).toNat = c.toNat - 0x61 + 10)) ∧
  (∀ v : Byte, (v.toNat ≤ 9 → (hexdig v).toNat = 0x30 + v.toNat) ∧
    (10 ≤ v.toNat → v.toNat ≤ 15 → (hexdig v).toNat = 0x41 + v.toNat - 10)) ∧
  (∀ b : Byte, hex2 b = [hexdig (b >>> 4), hexdig (b &&& 0x0F#8)]) ∧
  (hexstr [] = [] ∧ ∀ (b : Byte) (f : Frame), hexstr (b :: f) = hex2 b ++ hexstr f) ∧
  (∀ (v : Bytes) (n : Nat), decparse v = some n ↔
    1 ≤ v.length ∧ v.length ≤ 3 ∧ decimalText v ∧ decimalValue v = n) ∧
  (∀ n : Nat, dec n ≠ [] ∧ decimalText (dec n) ∧ decimalValue (dec n) = n ∧
    ∀ v : Bytes, v ≠ [] → decimalText v → decimalValue v = n → (dec n).length ≤ v.length) ∧
  (∀ n : Nat, n < 1000 → decparse (dec n) = some n ∧ (n ≠ 0 → (dec n)[0]? ≠ some 0x30#8)) ∧
  (∀ b : Byte, ∃ hi lo, hex2 b = [hi, lo] ∧ ishex hi = true ∧ ishex lo = true ∧ 16#8 * hexval hi + hexval lo = b)

/-- ENC.RX (R131): `RX:`, the decimal length, `:`, the hex digits, the terminator; at most 264 bytes. -/
def Obligations.EncRxWritesRxLine : Prop :=
  (∀ f : Frame, encode (.encRx f) = .op 0x4 f) ∧
  (∀ (s : State) (f : Frame), s.cfg.wf = true → legalFrame f →
    exec (.encRx f) s = .next (s.deliver (some (.line
      ([0x52#8, 0x58#8, 0x3A#8] ++ dec f.length ++ [0x3A#8] ++ hexstr f ++ [0x0A#8]))) [])) ∧
  (∀ f : Frame, legalFrame f →
    (encRxLine f).length = 3 + (dec f.length).length + 1 + 2 * f.length + 1 ∧ (encRxLine f).length ≤ 264) ∧
  (∀ (s : State) (f : Frame), s.cfg.wf = true → illegalFrame f →
    exec (.encRx f) s = .refused (.operand .frameLength))

/-- ENC.TX (R132): `TX:`, the hex digits, the terminator; at most 260 bytes. -/
def Obligations.EncTxWritesTxLine : Prop :=
  (∀ f : Frame, encode (.encTx f) = .op 0x5 f) ∧
  (∀ (s : State) (f : Frame), s.cfg.wf = true → legalFrame f →
    exec (.encTx f) s = .next (s.deliver (some (.line ([0x54#8, 0x58#8, 0x3A#8] ++ hexstr f ++ [0x0A#8]))) [])) ∧
  (∀ f : Frame, legalFrame f → (encTxLine f).length = 3 + 2 * f.length + 1 ∧ (encTxLine f).length ≤ 260) ∧
  (∀ (s : State) (f : Frame), s.cfg.wf = true → illegalFrame f →
    exec (.encTx f) s = .refused (.operand .frameLength))

/-- ENC.TOK (R133), each of the four token ids; a byte that names no token id is no instruction. The codes 0 to 3 of the token
ids are R86's; that a token id stands at the port as one byte, so that a byte above 3 is refused, is the model's
DESIGN CHOICE, log 12. -/
def Obligations.EncTokWritesTokenLine : Prop :=
  (encode (.encTok .ready) = .op 0x6 [0#8] ∧ encode (.encTok .pong) = .op 0x6 [1#8] ∧
    encode (.encTok .ping) = .op 0x6 [2#8] ∧ encode (.encTok .version) = .op 0x6 [3#8]) ∧
  (∀ s : State, s.cfg.wf = true →
    exec (.encTok .ready) s =
      .next (s.deliver (some (.line [0x52#8, 0x45#8, 0x41#8, 0x44#8, 0x59#8, 0x0A#8])) []) ∧
    exec (.encTok .pong) s = .next (s.deliver (some (.line [0x50#8, 0x4F#8, 0x4E#8, 0x47#8, 0x0A#8])) []) ∧
    exec (.encTok .ping) s = .next (s.deliver (some (.line [0x50#8, 0x49#8, 0x4E#8, 0x47#8, 0x0A#8])) []) ∧
    exec (.encTok .version) s = .next (s.deliver (some (.line (s.cfg.versionToken ++ [0x0A#8]))) [])) ∧
  (∀ (cfg : Cfg) (b : Byte), 3#8 < b → decode cfg (.op 0x6 [b]) = .error .tokenId)

/-- The round trip of R134: in both hex modes DEC.LINE reads back what ENC wrote, for frames and tokens; and, streaming,
the pushes of an `RX:` line return exactly `[EnvRx(f)]`, leave `LLEN = 0`, `LOVF = 0` and touch no reassembler state. -/
def Obligations.EncodedLinesDecodeBack : Prop :=
  (∀ (cfg : Cfg) (f : Frame), legalFrame f →
    decodeLine cfg (encRxLine f).dropLast = .rxFrame f ∧ decodeLine cfg (encTxLine f).dropLast = .txFrame f) ∧
  (∀ cfg : Cfg, cfg.wf = true →
    decodeLine cfg (encTokLine cfg .ready).dropLast = .token .ready tokReady ∧
    decodeLine cfg (encTokLine cfg .pong).dropLast = .token .pong tokPong ∧
    decodeLine cfg (encTokLine cfg .ping).dropLast = .token .ping tokPing ∧
    decodeLine cfg (encTokLine cfg .version).dropLast = .token .other cfg.versionToken) ∧
  (∀ (s : State) (f : Frame), s.cfg.wf = true → s.llen = 0 → s.lovf = false → legalFrame f →
    ∃ m ds, execAll (decPushs (encRxLine f)) s = .next { s with lb := m, delivered := s.delivered ++ ds } ∧
      eventsOf ds = [.envRx f])

/-- `TXCMD f` (R90, R241): the frame is sealed, then enveloped. -/
def Obligations.TxCommandSealsThenEnvelopes : Prop :=
  ∀ (s : State) (f : Frame), s.cfg.wf = true → legalFrame f →
    execAll (txCmd f) s = .next ((s.deliver (some (.frame (chkSeal f))) []).deliver
      (some (.line ([0x54#8, 0x58#8, 0x3A#8] ++ hexstr (chkSeal f) ++ [0x0A#8]))) [])

/-! ## DEC -/

/-- DEC.LINE (R150, R151, R154, R155) on the lines that are no envelope: blank, the three fixed tokens, and any other; and
its refusals. -/
def Obligations.DecLineReadsBlankAndTokens : Prop :=
  ∀ s : State, s.cfg.wf = true →
    exec (.decLine []) s = .next (s.deliver (some (.envelope .blank)) []) ∧
    exec (.decLine tokReady) s = .next (s.deliver (some (.envelope (.token .ready tokReady))) []) ∧
    exec (.decLine tokPong) s = .next (s.deliver (some (.envelope (.token .pong tokPong))) []) ∧
    exec (.decLine tokPing) s = .next (s.deliver (some (.envelope (.token .ping tokPing))) []) ∧
    (∀ t : Bytes, t.length ≤ 263 → contentOk t → t ≠ [] → t.take 3 ≠ pfxRx → t.take 3 ≠ pfxTx →
      t ≠ tokReady → t ≠ tokPong → t ≠ tokPing →
      exec (.decLine t) s = .next (s.deliver (some (.envelope (.token .other t))) [])) ∧
    (∀ t : Bytes, 263 < t.length → exec (.decLine t) s = .refused (.operand .lineTooLong)) ∧
    (∀ t : Bytes, t.length ≤ 263 → lineTerm ∈ t → exec (.decLine t) s = .refused (.operand .lineHasTerminator))

/-- `DECODE_RX` (R152), the tests in exactly this order: no separator; a bad `<len>`; a bad hex field; a length that
differs; a size outside 1 to 128; a frame. `a` is what stands before the first `:`. -/
def Obligations.DecLineReadsRxEnvelope : Prop :=
  ∀ (s : State) (r : Bytes), s.cfg.wf = true → r.length ≤ 260 → contentOk r →
    ∃ e, exec (.decLine (pfxRx ++ r)) s = .next (s.deliver (some (.envelope e)) []) ∧
      (colon ∉ r → e = .malformed .noLenSep) ∧
      (∀ a b : Bytes, r = a ++ [colon] ++ b → colon ∉ a →
        (decparse a = none → e = .malformed .badLen) ∧
        (∀ n, decparse a = some n →
          (∀ x, hexdec s.cfg b = .error x → e = .malformed x) ∧
          (∀ f, hexdec s.cfg b = .ok f →
            (f.length ≠ n → e = .malformed .lenMismatch) ∧
            (f.length = n → (n < 1 ∨ 128 < n) → e = .malformed .badSize) ∧
            (f.length = n → 1 ≤ n → n ≤ 128 → e = .rxFrame f))))

/-- `DECODE_TX` (R153). -/
def Obligations.DecLineReadsTxEnvelope : Prop :=
  ∀ (s : State) (b : Bytes), s.cfg.wf = true → b.length ≤ 260 → contentOk b →
    ∃ e, exec (.decLine (pfxTx ++ b)) s = .next (s.deliver (some (.envelope e)) []) ∧
      (∀ x, hexdec s.cfg b = .error x → e = .malformed x) ∧
      (∀ f, hexdec s.cfg b = .ok f →
        ((f.length < 1 ∨ 128 < f.length) → e = .malformed .badSize) ∧
        (1 ≤ f.length → f.length ≤ 128 → e = .txFrame f))

/-- HEXDEC in strict mode (R156): odd length first, then a character that is no hex digit, else two digits a byte. (R170 and
D14 call the field of `TX:00\r` `NON_HEX`; its length is odd, and the order is R156's: log 14.) -/
def Obligations.StrictHexDecodesPairs : Prop :=
  ∀ (cfg : Cfg) (b : Bytes), cfg.hexTolerant = false →
    (b.length % 2 = 1 → hexdec cfg b = .error .oddHex) ∧
    (b.length % 2 = 0 → (∃ c, c ∈ b ∧ ishex c = false) → hexdec cfg b = .error .nonHex) ∧
    (b.length % 2 = 0 → (∀ c, c ∈ b → ishex c = true) →
      ∃ f, hexdec cfg b = .ok f ∧ f.length = b.length / 2 ∧
        ∀ j x y, b[2 * j]? = some x → b[2 * j + 1]? = some y → f[j]? = some (16#8 * hexval x + hexval y))

/-- HEXDEC in tolerant mode (R158): it never fails; a character that is no hex digit is the nibble 0, a missing digit is 0,
the byte count is the ceiling of half the length; on well-formed hex it agrees with strict mode. -/
def Obligations.TolerantHexNeverFails : Prop :=
  ∀ (cfg : Cfg) (b : Bytes), cfg.hexTolerant = true →
    ∃ f, hexdec cfg b = .ok f ∧ f.length = (b.length + 1) / 2 ∧
      (∀ j x y, b[2 * j]? = some x → b[2 * j + 1]? = some y →
        f[j]? = some (16#8 * (if ishex x then hexval x else 0#8) + (if ishex y then hexval y else 0#8))) ∧
      (∀ j x, b[2 * j]? = some x → b.length ≤ 2 * j + 1 →
        f[j]? = some (16#8 * (if ishex x then hexval x else 0#8))) ∧
      (b.length % 2 = 0 → (∀ c, c ∈ b → ishex c = true) → hexdec { cfg with hexTolerant := false } b = .ok f)

/-- Every frame the decoder delivers has 1 to 128 bytes, so the reassembler behind it is never given an illegal one
(R240, R152, R153). -/
def Obligations.DecodedFramesAreLegal : Prop :=
  ∀ (cfg : Cfg) (t : Bytes) (f : Frame),
    decodeLine cfg t = .rxFrame f ∨ decodeLine cfg t = .txFrame f → legalFrame f

/-- DEC.PUSH (R170). A byte that is not the terminator is stored at `LLEN` while the buffer has room, and discarded with
`LOVF` set when it has none; no event; every other byte and register is unchanged. At the terminator the live bytes are
the line; `LLEN` and `LOVF` are cleared whatever the line was; an overlong line is reported as such, any other as its
envelope says, a malformed one with its raw text (R261); no buffer byte and no reassembler register changes. The reason R170's
corner case gives for `TX:00\r\n` is not claimed: R156 gives another (log 14). -/
def Obligations.DecPushStoresBytesAndReportsLines : Prop :=
  (∀ c : Byte, encode (.decPush c) = .op 0x8 [c]) ∧
  (∀ (s : State) (c : Byte), s.cfg.wf = true → c ≠ 0x0A#8 →
    (s.llen < 263 → ∃ m, exec (.decPush c) s = .next ({ s with lb := m, llen := s.llen + 1 }.deliver none []) ∧
      writtenAt s.lb m s.llen [c]) ∧
    (263 ≤ s.llen → exec (.decPush c) s = .next ({ s with lovf := true }.deliver none []))) ∧
  (∀ (s : State) (t : Bytes), s.Inv → liveBytes s.lb s.llen t →
    ∃ ev, exec (.decPush 0x0A#8) s = .next ({ s with llen := 0, lovf := false }.deliver none ev) ∧
      (s.lovf = true → ev = [.malformedEnvelope .overlong t]) ∧
      (s.lovf = false →
        (decodeLine s.cfg t = .blank → ev = []) ∧
        (∀ f, decodeLine s.cfg t = .rxFrame f → ev = [.envRx f]) ∧
        (∀ f, decodeLine s.cfg t = .txFrame f → ev = [.envTx f]) ∧
        (∀ k x, decodeLine s.cfg t = .token k x → ev = [.envToken k x]) ∧
        (∀ r, decodeLine s.cfg t = .malformed r → ev = [.malformedEnvelope r t])))

/-- "the pushes `DEC.PUSHS (t ++ [0x0A])` return the event list that corresponds to `DEC.LINE(t)`" (R172). -/
def Obligations.PushesOfLineAgreeWithDecLine : Prop :=
  ∀ (s : State) (t : Bytes), s.cfg.wf = true → s.llen = 0 → s.lovf = false → t.length ≤ 263 → contentOk t →
    ∃ m ds, execAll (decPushs (t ++ [0x0A#8])) s = .next { s with lb := m, delivered := s.delivered ++ ds } ∧
      eventsOf ds = envelopeEvents t (decodeLine s.cfg t)

/-- An overlong line (R171): what does not fit is discarded and sets `LOVF`; at the terminator the first 263 bytes are
reported, and the decoder is clean again. -/
def Obligations.OverlongLineIsDroppedWhole : Prop :=
  ∀ (s : State) (t : Bytes), s.cfg.wf = true → s.llen = 0 → s.lovf = false → 263 < t.length → contentOk t →
    (∃ m ds, execAll (decPushs t) s =
        .next { s with lb := m, llen := 263, lovf := true, delivered := s.delivered ++ ds } ∧
      eventsOf ds = [] ∧ writtenAt s.lb m 0 (t.take 263)) ∧
    ∃ m ds, execAll (decPushs (t ++ [0x0A#8])) s = .next { s with lb := m, delivered := s.delivered ++ ds } ∧
      eventsOf ds = [.malformedEnvelope .overlong (t.take 263)]

/-- The seven LINE rows (`lineBlank`, `lineRx`, `lineTx`, `lineTokReady`, `lineTokPong`, `lineTokPing`, `lineTokOther`): a line
that arrives while none is in progress is stored and reported in one step, and nothing else changes (R87, R172); in every
legal state, in mid-line too, the row leaves the state that the pushes of its content and its terminator leave, and makes one
delivery of their events concatenated (R90, R170). That a LINE row is the whole line's arrival is the model's reading,
log 6. -/
def Obligations.LineRowsReportTheirLine : Prop :=
  (∀ (s : State) (i : Instr) (t : Bytes), s.cfg.wf = true → s.llen = 0 → s.lovf = false →
    i.wf s.cfg = true → encode i = .line t →
    ∃ m, exec i s = .next ({ s with lb := m }.deliver none
        (if 263 < t.length then [.malformedEnvelope .overlong (t.take 263)]
         else envelopeEvents t (decodeLine s.cfg t))) ∧
      writtenAt s.lb m 0 (t.take 263)) ∧
  (∀ (s : State) (i : Instr) (t : Bytes), s.Inv → i.wf s.cfg = true → encode i = .line t →
    ∃ u ds, execAll (decPushs (t ++ [0x0A#8])) s = .next u ∧ u.delivered = s.delivered ++ ds ∧
      exec i s = .next { u with delivered := s.delivered ++ [⟨none, eventsOf ds⟩] })

/-! ## FCL -/

/-- FCL.CLASS (R181 to R185): the `GoKeepalive` shape, then the first matching `SHAPES` entry, then the fragment test, else
unrecognized; from the frame and the configuration alone (R186). -/
def Obligations.FclClassTestsInOrder : Prop :=
  (∀ f : Frame, encode (.fclClass f) = .op 0x9 f) ∧
  (∀ (s : State) (f : Frame), s.cfg.wf = true → legalFrame f →
    ∃ c, exec (.fclClass f) s = .next (s.deliver (some (.cls c)) []) ∧
      ((f.length = 15 ∧ f[13]? = some 0x47#8 ∧ f[14]? = some 0x4F#8) → c = .goKeepalive) ∧
      (¬(f.length = 15 ∧ f[13]? = some 0x47#8 ∧ f[14]? = some 0x4F#8) →
        (∀ (before after : List Shape) (sh : Shape), s.cfg.shapes = before ++ sh :: after →
          (∀ x, x ∈ before → ¬(f.length = x.len ∧ ∀ m, m ∈ x.marks → f[m.1]? = some m.2)) →
          (f.length = sh.len ∧ ∀ m, m ∈ sh.marks → f[m.1]? = some m.2) → c = .shape sh.cls) ∧
        ((∀ x, x ∈ s.cfg.shapes → ¬(f.length = x.len ∧ ∀ m, m ∈ x.marks → f[m.1]? = some m.2)) →
          ((s.cfg.hdrSize ≤ f.length ∧ f[s.cfg.typeOff]? = some s.cfg.typeVal ∧
              (∀ k, s.cfg.markCheck = some k → f[k.off]? = some k.b0 ∧ f[k.off + 1]? = some k.b1)) →
            c = .fragment) ∧
          (¬(s.cfg.hdrSize ≤ f.length ∧ f[s.cfg.typeOff]? = some s.cfg.typeVal ∧
              (∀ k, s.cfg.markCheck = some k → f[k.off]? = some k.b0 ∧ f[k.off + 1]? = some k.b1)) →
            c = .unrecognized)))) ∧
  (∀ (s : State) (f : Frame), s.cfg.wf = true → illegalFrame f →
    exec (.fclClass f) s = .refused (.operand .frameLength))

/-! ## RSM -/

/-- Frames that are not fragments leave the reassembler untouched (R202, R263), in every `RST` state. -/
def Obligations.NonFragmentLeavesReassembler : Prop :=
  ∀ (s : State) (f : Frame), s.cfg.wf = true → legalFrame f → passesCheck s.cfg f →
    (classify s.cfg f = .goKeepalive → exec (.rsmFrame f) s = .next (s.deliver none [.message .goKeepalive f])) ∧
    (∀ k, classify s.cfg f = .shape k → exec (.rsmFrame f) s = .next (s.deliver none [.message (.shape k) f])) ∧
    (classify s.cfg f = .unrecognized →
      exec (.rsmFrame f) s = .next (s.deliver none [.unrecognizedMessageShape f]))

/-- The optional receive check (R203, R262): a frame that fails it is dropped before classification with no state change;
with the check off `ChecksumMismatch` never occurs. An illegal frame is refused (R201). -/
def Obligations.FailedCheckDropsFrame : Prop :=
  ∀ (s : State) (f : Frame), s.cfg.wf = true →
    (legalFrame f → s.cfg.rxVerify = true → chkVfy f = false →
      exec (.rsmFrame f) s = .next (s.deliver none [.checksumMismatch f])) ∧
    (s.cfg.rxVerify = false → ∀ t, exec (.rsmFrame f) s = .next t →
      ∀ d, t.delivered = s.delivered ++ [d] → ∀ g, .checksumMismatch g ∉ d.events) ∧
    (illegalFrame f → exec (.rsmFrame f) s = .refused (.operand .frameLength))

/-- The transition table of R216, all six rows, with what each writes (R205 to R210, R265). `p` is the fragment's payload.
The completed payload `q` is the live bytes followed by `p`, and what comes of it is COMPLETE (R211). -/
def Obligations.FragmentTransitionTable : Prop :=
  ∀ (s : State) (f p : Bytes), s.Inv → legalFrame f → passesCheck s.cfg f → classify s.cfg f = .fragment →
    p = f.drop s.cfg.hdrSize →
    (s.rst ≠ .resync → moreFlag s.cfg f = true → s.rlen + p.length ≤ s.cfg.bufCap →
      ∃ m, exec (.rsmFrame f) s =
          .next ({ s with rb := m, rlen := s.rlen + p.length, rst := .accum }.deliver none []) ∧
        writtenAt s.rb m s.rlen p) ∧
    (s.rst ≠ .resync → moreFlag s.cfg f = false → s.rlen + p.length ≤ s.cfg.bufCap →
      ∀ l, liveBytes s.rb s.rlen l →
      ∃ m, exec (.rsmFrame f) s = finish (complete (l ++ p) { s with rb := m, rlen := 0, rst := .idle }) ∧
        writtenAt s.rb m s.rlen p) ∧
    (s.rst ≠ .resync → moreFlag s.cfg f = true → s.cfg.bufCap < s.rlen + p.length →
      exec (.rsmFrame f) s =
        .next ({ s with rlen := 0, rst := .resync }.deliver none [.reassemblyOverflow s.rlen p.length])) ∧
    (s.rst ≠ .resync → moreFlag s.cfg f = false → s.cfg.bufCap < s.rlen + p.length →
      exec (.rsmFrame f) s =
        .next ({ s with rlen := 0, rst := .idle }.deliver none [.reassemblyOverflow s.rlen p.length])) ∧
    (s.rst = .resync → moreFlag s.cfg f = true → exec (.rsmFrame f) s = .next (s.deliver none [])) ∧
    (s.rst = .resync → moreFlag s.cfg f = false →
      exec (.rsmFrame f) s = .next ({ s with rst := .idle }.deliver none []))

/-- The continuation predicate and the payload of a fragment (R204): "more" exactly when the flag byte lies in
`CONT_MORE_SET`; the payload is what follows the header, 0 to 126 bytes. -/
def Obligations.ContinuationFlagReadsSet : Prop :=
  ∀ (cfg : Cfg) (f : Frame), cfg.wf = true → legalFrame f → classify cfg f = .fragment →
    (∃ b, f[cfg.contOff]? = some b ∧ (moreFlag cfg f = true ↔ cfg.contMoreSet.getLsbD b.toNat = true)) ∧
    payload cfg f = f.drop cfg.hdrSize ∧ (payload cfg f).length + cfg.hdrSize = f.length ∧ (payload cfg f).length ≤ 126

/-- COMPLETE (R211): the detector, the status-only test, the combined test, and everything else. -/
def Obligations.CompletedPayloadIsClassified : Prop :=
  ∀ (s : State) (p : Bytes),
    (s.cslValid = false → s.cfg.detMin ≤ p.length → p.length ≤ s.cfg.detMax → p[0]? = some s.cfg.statusMark →
      complete p s =
        .ok ({ s with csl := p.length, cslValid := true }, [.canonicalLengthPinned p.length, .statusOnly p])) ∧
    (s.cslValid = false →
      ¬(s.cfg.detMin ≤ p.length ∧ p.length ≤ s.cfg.detMax ∧ p[0]? = some s.cfg.statusMark) →
      complete p s = .ok (s, [.unrecognizedMessageShape p])) ∧
    (s.cslValid = true → p.length = s.csl → p[0]? = some s.cfg.statusMark → complete p s = .ok (s, [.statusOnly p])) ∧
    (∀ a b : Bytes, s.cslValid = true → p = a ++ b → a ≠ [] → b.length = s.csl →
      s.cfg.combMin ≤ p.length → p.length ≤ s.cfg.combMax →
      b[0]? = some s.cfg.splitM0 → b[1]? = some s.cfg.splitM1 → complete p s = .ok (s, [.combined a b])) ∧
    (s.cslValid = true → ¬(p.length = s.csl ∧ p[0]? = some s.cfg.statusMark) →
      ¬(s.cfg.combMin ≤ p.length ∧ p.length ≤ s.cfg.combMax ∧ s.csl < p.length ∧
        p[p.length - s.csl]? = some s.cfg.splitM0 ∧ p[p.length - s.csl + 1]? = some s.cfg.splitM1) →
      complete p s = .ok (s, [.unrecognizedMessageShape p]))

/-- The reassembly property (R217). `fs` are the frames before the terminal fragment `last`: every fragment among them has
the continuation flag set, the others are any non-fragments. Each fragment of `fs` returns `[]`; the operation on `last`
is COMPLETE of the concatenated payloads; afterwards `RST = IDLE`, `RLEN = 0`. -/
def Obligations.FragmentsReassembleInOrder : Prop :=
  ∀ (s : State) (fs : List Frame) (last : Frame), s.Inv → s.rst = .idle →
    (∀ f, f ∈ fs → legalFrame f ∧ passesCheck s.cfg f ∧
      (classify s.cfg f = .fragment → moreFlag s.cfg f = true)) →
    legalFrame last → passesCheck s.cfg last → classify s.cfg last = .fragment → moreFlag s.cfg last = false →
    ∀ p : Bytes, p = ((fs.filter fun f => classify s.cfg f = .fragment) ++ [last]).flatMap (payload s.cfg) →
    p.length ≤ s.cfg.bufCap →
    ∃ t m ev u,
      execAll (rsmFrames fs) s = .next t ∧
      t.delivered = s.delivered ++ fs.map (fun f => ⟨none, match classify s.cfg f with
        | .goKeepalive => [.message .goKeepalive f]
        | .shape k => [.message (.shape k) f]
        | .fragment => []
        | .unrecognized => [.unrecognizedMessageShape f]⟩) ∧
      complete p { t with rb := m, rlen := 0, rst := .idle } = .ok (u, ev) ∧
      exec (.rsmFrame last) t = .next (u.deliver none ev) ∧ u.rst = .idle ∧ u.rlen = 0

/-- "In any sequence of operations that contains no SYS.NEWSESSION and no SYS.RESET", a pinned canonical length stays
(R218). -/
def Obligations.CanonicalLengthStaysPinned : Prop :=
  ∀ (is : List Instr) (s t : State), .sysNewsession ∉ is → .sysReset ∉ is → execAll is s = .next t →
    s.cslValid = true → t.cslValid = true ∧ t.csl = s.csl

/-- The only event list of more than one event is `[CanonicalLengthPinned(n), StatusOnly(P)]`, in that order (R61), from any
instruction. -/
def Obligations.TwoEventsArePinThenStatus : Prop :=
  ∀ (i : Instr) (s t : State), exec i s = .next t → ∀ d, t.delivered = s.delivered ++ [d] →
    d.events.length ≤ 1 ∨ ∃ p, d.events = [.canonicalLengthPinned p.length, .statusOnly p]

/-- "At most one error event is raised per operation" (R271), and it stands alone in its event list. -/
def Obligations.AtMostOneErrorPerOperation : Prop :=
  ∀ (i : Instr) (s t : State), exec i s = .next t → ∀ d, t.delivered = s.delivered ++ [d] →
    (d.events.filter isError).length ≤ 1 ∧ (∀ e, e ∈ d.events → isError e = true → d.events = [e])

/-- The four FRAME rows (`frameGo`, `frameShape`, `frameFrag`, `frameUnrecognized`) do what RSM.FRAME does with their frame,
and complete (R201, R202, R205; that a FRAME row is the frame's receipt is the model's reading, log 7). -/
def Obligations.FrameRowsActAsRsmFrame : Prop :=
  ∀ (s : State) (i : Instr) (f : Frame), s.Inv → i.wf s.cfg = true → encode i = .frame f →
    exec i s = exec (.rsmFrame f) s ∧ ∃ t, exec i s = .next t

/-! ## System operations -/

/-- PIPE.PUSH (R240): what DEC.PUSH reports passes through, but a received frame, whose `EnvRx` is consumed and which goes to
RSM.FRAME in the state DEC.PUSH left; it completes. -/
def Obligations.PipePushFeedsReassembler : Prop :=
  ∀ (s : State) (c : Byte), s.Inv → encode (.pipePush c) = .op 0xB [c] ∧
    ∃ u ev, exec (.decPush c) s = .next (u.deliver none ev) ∧
      (∀ f, ev = [.envRx f] → exec (.pipePush c) s = exec (.rsmFrame f) u) ∧
      ((∀ f, ev ≠ [.envRx f]) → exec (.pipePush c) s = .next (u.deliver none ev)) ∧
      ∃ t, exec (.pipePush c) s = .next t

/-- SYS.NEWSESSION (R245): `RLEN`, `RST`, `CSL`, `CSL_VALID` and nothing else; it returns no event. -/
def Obligations.NewSessionForgetsMessageAndLength : Prop :=
  encode .sysNewsession = .op 0xC [] ∧ ∀ s : State, s.cfg.wf = true →
    exec .sysNewsession s =
      .next ({ s with rlen := 0, rst := .idle, csl := 0, cslValid := false }.deliver none [])

/-- SYS.RESET (R248): the six registers; the contents of `LB` and `RB` are not cleared; it returns no event; asserting the
reset input makes the same writes. -/
def Obligations.ResetClearsAllRegisters : Prop :=
  encode .sysReset = .op 0xF [] ∧
  (∀ s : State, s.cfg.wf = true →
    exec .sysReset s = .next ({ s with llen := 0, lovf := false, rlen := 0, rst := .idle, csl := 0,
                                       cslValid := false }.deliver none [])) ∧
  (∀ (s : State) (rest : List Input), s.port = .resetLine true :: rest →
    ∃ t, step s = .next t ∧ { t with port := s.port, resetHeld := s.resetHeld } =
      { s with llen := 0, lovf := false, rlen := 0, rst := .idle, csl := 0, cslValid := false })

/-- SYS.STATUS (R250): the tuple, no event, nothing written. -/
def Obligations.StatusReturnsRegisters : Prop :=
  encode .sysStatus = .op 0x0 [] ∧ ∀ s : State, s.cfg.wf = true →
    exec .sysStatus s =
      .next (s.deliver (some (.status ⟨s.rst, s.rlen, s.cslValid, s.csl, s.llen, s.lovf⟩)) [])

/-- Ownership (R32): no operation outside RSM.FRAME, SYS.NEWSESSION and SYS.RESET writes the reassembler's state, none
outside DEC.PUSH (and PIPE.PUSH) and SYS.RESET writes the decoder's. Here with the rows of the table: a LINE row is a run
of DEC.PUSH, a FRAME row an RSM.FRAME (logs 6, 7). CHK, ENC, FCL, DEC.LINE and SYS.STATUS write nothing. -/
def Obligations.EachUnitWritesItsOwnState : Prop :=
  ∀ (i : Instr) (s t : State), exec i s = .next t →
    (t.rb = s.rb ∧ t.rlen = s.rlen ∧ t.rst = s.rst ∧ t.csl = s.csl ∧ t.cslValid = s.cslValid ∨
      (∃ f, i = .rsmFrame f ∨ i = .frameFrag f) ∨ (∃ c, i = .pipePush c) ∨ i = .sysNewsession ∨ i = .sysReset) ∧
    (t.lb = s.lb ∧ t.llen = s.llen ∧ t.lovf = s.lovf ∨
      (∃ c, i = .decPush c ∨ i = .pipePush c) ∨ i = .sysReset ∨ (∃ l, encode i = .line l)) ∧
    (i = .sysReset ∨ i = .sysNewsession → t.lb = s.lb ∧ t.rb = s.rb)

/-- What sets and clears the two flags (R24, R31): `LOVF` is set only by a pushed byte that is not the terminator while the
line buffer is full, and cleared only by the terminator (alone or at the end of a LINE row) and SYS.RESET; `CSL_VALID` is
set only where a fragment completes a payload, and cleared only by SYS.NEWSESSION and SYS.RESET. -/
def Obligations.FlagsChangeOnlyAsRuled : Prop :=
  ∀ (i : Instr) (s t : State), exec i s = .next t →
    (s.lovf = false → t.lovf = true →
      ∃ c, (i = .decPush c ∨ i = .pipePush c) ∧ c ≠ 0x0A#8 ∧ 263 ≤ s.llen) ∧
    (s.lovf = true → t.lovf = false →
      i = .decPush 0x0A#8 ∨ i = .pipePush 0x0A#8 ∨ i = .sysReset ∨ ∃ l, encode i = .line l) ∧
    (s.cslValid = false → t.cslValid = true → (∃ f, i = .rsmFrame f ∨ i = .frameFrag f) ∨ i = .pipePush 0x0A#8) ∧
    (s.cslValid = true → t.cslValid = false → i = .sysNewsession ∨ i = .sysReset)

/-! ## The reset input, held -/

/-- While the reset input is asserted the six registers hold their values after reset (R290, R291). The state after reset does
so at either level of the input, every assertion of the input makes it so whatever stood before, and every step keeps it. -/
def Obligations.StepKeepsRegistersInReset : Prop :=
  (∀ (c : Cfg) (held : Bool), ({ State.resetWith c with resetHeld := held } : State).heldHasResetValues) ∧
  (∀ (s : State) (rest : List Input), s.port = .resetLine true :: rest →
    ∃ t, step s = .next t ∧ t.resetHeld = true ∧ t.heldHasResetValues) ∧
  (∀ s t : State, s.heldHasResetValues → step s = .next t → t.heldHasResetValues)
end

