-- ==== Sys2Proof/Laws/Memory.lean ====
section
/-! SUPPORT. The laws of one buffer: reading after writing, and that writing keeps the canonical form and the bounds. -/

namespace Sys2Proof.Machine.Memory

theorem read_write_same (m : Memory) (a : Nat) (b : Byte) : (m.write a b).read a = some b := by
  induction m with
  | nil => simp [write, read]
  | cons c rest ih =>
    unfold write
    split
    · simp [read]
    · split
      · simp [read]
      · rename_i h1 h2
        have h3 : c.1 ≠ a := fun h => h2 h.symm
        simp [read, h3, ih]

theorem read_write_ne (m : Memory) {a x : Nat} (b : Byte) (h : x ≠ a) : (m.write a b).read x = m.read x := by
  induction m with
  | nil => simp [write, read, Ne.symm h]
  | cons c rest ih =>
    unfold write
    split
    · simp [read, Ne.symm h]
    · split
      · rename_i h1 h2
        subst h2
        simp [read, Ne.symm h]
      · simp [read, ih]

theorem read_write (m : Memory) (a x : Nat) (b : Byte) :
    (m.write a b).read x = if x = a then some b else m.read x := by
  split
  · next h => rw [h, read_write_same]
  · next h => exact read_write_ne m b h

/-- A run of writes: the bytes written read back, every other byte reads as before. -/
theorem read_writeBytes (m : Memory) (a : Nat) (v : Bytes) (x : Nat) :
    (m.writeBytes a v).read x = if a ≤ x ∧ x < a + v.length then v[x - a]? else m.read x := by
  induction v generalizing m a with
  | nil => simp [writeBytes]
  | cons b bs ih =>
    simp only [writeBytes, ih, read_write, List.length_cons]
    by_cases hx : x = a
    · subst hx
      simp
    · by_cases h : a + 1 ≤ x ∧ x < a + 1 + bs.length
      · obtain ⟨k, rfl⟩ : ∃ k, x = a + 1 + k := ⟨x - (a + 1), by omega⟩
        rw [if_pos h, if_pos (by omega)]
        have e1 : a + 1 + k - (a + 1) = k := by omega
        have e2 : a + 1 + k - a = k + 1 := by omega
        rw [e1, e2, List.getElem?_cons_succ]
      · rw [if_neg h, if_neg hx, if_neg (by omega)]

/-- Reading a run succeeds exactly with the bytes that stand there. -/
theorem readBytes_eq_some (m : Memory) (a n : Nat) (v : Bytes) :
    m.readBytes a n = some v ↔ v.length = n ∧ ∀ i, i < n → m.read (a + i) = v[i]? := by
  induction n generalizing a v with
  | zero =>
    simp only [readBytes, Option.some.injEq]
    constructor
    · rintro rfl; simp
    · rintro ⟨h, -⟩; exact (List.length_eq_zero_iff.mp h).symm
  | succ k ih =>
    unfold readBytes
    constructor
    · intro h
      split at h
      · next b bs hb hbs =>
        obtain ⟨h1, h2⟩ := (ih (a + 1) bs).mp hbs
        cases h
        refine ⟨by simp [h1], fun i hi => ?_⟩
        cases i with
        | zero => simpa using hb
        | succ j =>
          rw [show a + (j + 1) = a + 1 + j by omega, h2 j (by omega)]
          simp
      · cases h
    · rintro ⟨hl, hr⟩
      cases v with
      | nil => simp at hl
      | cons b bs =>
        have h0 := hr 0 (by omega)
        have h1 : m.readBytes (a + 1) k = some bs := by
          rw [ih]
          refine ⟨by simpa using hl, fun i hi => ?_⟩
          have := hr (i + 1) (by omega)
          rw [show a + 1 + i = a + (i + 1) by omega, this]
          simp
        simp only [Nat.add_zero, List.getElem?_cons_zero] at h0
        rw [h0, h1]

/-- Where every byte of the run has been written, the run can be read. -/
theorem readBytes_some_of_live (m : Memory) (a n : Nat) (h : ∀ i, i < n → ∃ b, m.read (a + i) = some b) :
    ∃ v, m.readBytes a n = some v := by
  induction n generalizing a with
  | zero => exact ⟨[], rfl⟩
  | succ k ih =>
    obtain ⟨b, hb⟩ := h 0 (by omega)
    obtain ⟨v, hv⟩ := ih (a + 1) fun i hi => by
      have := h (i + 1) (by omega)
      rwa [show a + 1 + i = a + (i + 1) by omega]
    exact ⟨b :: v, by simp only [Nat.add_zero] at hb; simp [readBytes, hb, hv]⟩

/-- The first index of a buffer is `a`, or the buffer is empty. -/
def startsAfter (m : Memory) (a : Nat) : Prop := ∀ c, m.head? = some c → a < c.1

theorem wf_cons (c : Host.Cell) (m : Memory) : wf (c :: m) = true ↔ startsAfter m c.1 ∧ wf m = true := by
  cases m with
  | nil => simp [wf, startsAfter]
  | cons d rest => simp [wf, startsAfter]

theorem write_startsAfter (m : Memory) {a x : Nat} (b : Byte) (h : startsAfter m x) (hx : x < a) :
    startsAfter (m.write a b) x := by
  cases m with
  | nil => intro c hc; simp [write] at hc; subst hc; exact hx
  | cons d rest =>
    intro c hc
    unfold write at hc
    split at hc
    · simp at hc; subst hc; exact hx
    · split at hc
      · simp at hc; subst hc; exact hx
      · simp at hc; subst hc; exact h d rfl

/-- Writing keeps the canonical form. -/
theorem wf_write (m : Memory) (a : Nat) (b : Byte) (h : m.wf = true) : (m.write a b).wf = true := by
  induction m with
  | nil => rfl
  | cons c rest ih =>
    rw [wf_cons] at h
    unfold write
    split
    · next hlt =>
      rw [wf_cons, wf_cons]
      exact ⟨fun d hd => by simp at hd; subst hd; exact hlt, h⟩
    · split
      · next heq => rw [wf_cons]; exact ⟨by simpa [heq] using h.1, h.2⟩
      · next h1 h2 => rw [wf_cons]; exact ⟨write_startsAfter rest b h.1 (by omega), ih h.2⟩

theorem wf_writeBytes (m : Memory) (a : Nat) (v : Bytes) (h : m.wf = true) : (m.writeBytes a v).wf = true := by
  induction v generalizing m a with
  | nil => exact h
  | cons b bs ih => exact ih _ _ (wf_write m a b h)

/-- Writing inside the buffer keeps every listed index inside it. -/
theorem below_write (m : Memory) {a n : Nat} (b : Byte) (h : m.below n = true) (ha : a < n) :
    (m.write a b).below n = true := by
  induction m with
  | nil => simp [write, below, ha]
  | cons c rest ih =>
    simp only [below, List.all_cons, Bool.and_eq_true, decide_eq_true_eq] at h
    unfold write
    split
    · simp [below, ha, h.1]; simpa [below] using h.2
    · split
      · simp [below, ha]; simpa [below] using h.2
      · have := ih h.2
        simp only [below, List.all_cons, Bool.and_eq_true, decide_eq_true_eq]
        exact ⟨h.1, this⟩

theorem below_writeBytes (m : Memory) (a n : Nat) (v : Bytes) (h : m.below n = true) (ha : a + v.length ≤ n) :
    (m.writeBytes a v).below n = true := by
  induction v generalizing m a with
  | nil => exact h
  | cons b bs ih =>
    simp only [List.length_cons] at ha
    exact ih _ _ (below_write m b h (by omega)) (by omega)

end Sys2Proof.Machine.Memory
end

