-- ==== Sys2Proof/Laws/State.lean ====
section
/-! SUPPORT. What each register update leaves in each field of the state: one lemma a field and update. -/

namespace Sys2Proof.Machine.State

@[simp] theorem setLb_cfg (s : State) (m : Memory) : (s.setLb m).cfg = s.cfg := rfl
@[simp] theorem setLb_lb (s : State) (m : Memory) : (s.setLb m).lb = m := rfl
@[simp] theorem setLb_llen (s : State) (m : Memory) : (s.setLb m).llen = s.llen := rfl
@[simp] theorem setLb_lovf (s : State) (m : Memory) : (s.setLb m).lovf = s.lovf := rfl
@[simp] theorem setLb_rb (s : State) (m : Memory) : (s.setLb m).rb = s.rb := rfl
@[simp] theorem setLb_rlen (s : State) (m : Memory) : (s.setLb m).rlen = s.rlen := rfl
@[simp] theorem setLb_rst (s : State) (m : Memory) : (s.setLb m).rst = s.rst := rfl
@[simp] theorem setLb_csl (s : State) (m : Memory) : (s.setLb m).csl = s.csl := rfl
@[simp] theorem setLb_cslValid (s : State) (m : Memory) : (s.setLb m).cslValid = s.cslValid := rfl
@[simp] theorem setLb_resetHeld (s : State) (m : Memory) : (s.setLb m).resetHeld = s.resetHeld := rfl
@[simp] theorem setLb_port (s : State) (m : Memory) : (s.setLb m).port = s.port := rfl
@[simp] theorem setLb_delivered (s : State) (m : Memory) : (s.setLb m).delivered = s.delivered := rfl

@[simp] theorem setLlen_cfg (s : State) (n : Nat) : (s.setLlen n).cfg = s.cfg := rfl
@[simp] theorem setLlen_lb (s : State) (n : Nat) : (s.setLlen n).lb = s.lb := rfl
@[simp] theorem setLlen_llen (s : State) (n : Nat) : (s.setLlen n).llen = n := rfl
@[simp] theorem setLlen_lovf (s : State) (n : Nat) : (s.setLlen n).lovf = s.lovf := rfl
@[simp] theorem setLlen_rb (s : State) (n : Nat) : (s.setLlen n).rb = s.rb := rfl
@[simp] theorem setLlen_rlen (s : State) (n : Nat) : (s.setLlen n).rlen = s.rlen := rfl
@[simp] theorem setLlen_rst (s : State) (n : Nat) : (s.setLlen n).rst = s.rst := rfl
@[simp] theorem setLlen_csl (s : State) (n : Nat) : (s.setLlen n).csl = s.csl := rfl
@[simp] theorem setLlen_cslValid (s : State) (n : Nat) : (s.setLlen n).cslValid = s.cslValid := rfl
@[simp] theorem setLlen_resetHeld (s : State) (n : Nat) : (s.setLlen n).resetHeld = s.resetHeld := rfl
@[simp] theorem setLlen_port (s : State) (n : Nat) : (s.setLlen n).port = s.port := rfl
@[simp] theorem setLlen_delivered (s : State) (n : Nat) : (s.setLlen n).delivered = s.delivered := rfl

@[simp] theorem setLovf_cfg (s : State) (b : Bool) : (s.setLovf b).cfg = s.cfg := rfl
@[simp] theorem setLovf_lb (s : State) (b : Bool) : (s.setLovf b).lb = s.lb := rfl
@[simp] theorem setLovf_llen (s : State) (b : Bool) : (s.setLovf b).llen = s.llen := rfl
@[simp] theorem setLovf_lovf (s : State) (b : Bool) : (s.setLovf b).lovf = b := rfl
@[simp] theorem setLovf_rb (s : State) (b : Bool) : (s.setLovf b).rb = s.rb := rfl
@[simp] theorem setLovf_rlen (s : State) (b : Bool) : (s.setLovf b).rlen = s.rlen := rfl
@[simp] theorem setLovf_rst (s : State) (b : Bool) : (s.setLovf b).rst = s.rst := rfl
@[simp] theorem setLovf_csl (s : State) (b : Bool) : (s.setLovf b).csl = s.csl := rfl
@[simp] theorem setLovf_cslValid (s : State) (b : Bool) : (s.setLovf b).cslValid = s.cslValid := rfl
@[simp] theorem setLovf_resetHeld (s : State) (b : Bool) : (s.setLovf b).resetHeld = s.resetHeld := rfl
@[simp] theorem setLovf_port (s : State) (b : Bool) : (s.setLovf b).port = s.port := rfl
@[simp] theorem setLovf_delivered (s : State) (b : Bool) : (s.setLovf b).delivered = s.delivered := rfl

@[simp] theorem setRb_cfg (s : State) (m : Memory) : (s.setRb m).cfg = s.cfg := rfl
@[simp] theorem setRb_lb (s : State) (m : Memory) : (s.setRb m).lb = s.lb := rfl
@[simp] theorem setRb_llen (s : State) (m : Memory) : (s.setRb m).llen = s.llen := rfl
@[simp] theorem setRb_lovf (s : State) (m : Memory) : (s.setRb m).lovf = s.lovf := rfl
@[simp] theorem setRb_rb (s : State) (m : Memory) : (s.setRb m).rb = m := rfl
@[simp] theorem setRb_rlen (s : State) (m : Memory) : (s.setRb m).rlen = s.rlen := rfl
@[simp] theorem setRb_rst (s : State) (m : Memory) : (s.setRb m).rst = s.rst := rfl
@[simp] theorem setRb_csl (s : State) (m : Memory) : (s.setRb m).csl = s.csl := rfl
@[simp] theorem setRb_cslValid (s : State) (m : Memory) : (s.setRb m).cslValid = s.cslValid := rfl
@[simp] theorem setRb_resetHeld (s : State) (m : Memory) : (s.setRb m).resetHeld = s.resetHeld := rfl
@[simp] theorem setRb_port (s : State) (m : Memory) : (s.setRb m).port = s.port := rfl
@[simp] theorem setRb_delivered (s : State) (m : Memory) : (s.setRb m).delivered = s.delivered := rfl

@[simp] theorem setRlen_cfg (s : State) (n : Nat) : (s.setRlen n).cfg = s.cfg := rfl
@[simp] theorem setRlen_lb (s : State) (n : Nat) : (s.setRlen n).lb = s.lb := rfl
@[simp] theorem setRlen_llen (s : State) (n : Nat) : (s.setRlen n).llen = s.llen := rfl
@[simp] theorem setRlen_lovf (s : State) (n : Nat) : (s.setRlen n).lovf = s.lovf := rfl
@[simp] theorem setRlen_rb (s : State) (n : Nat) : (s.setRlen n).rb = s.rb := rfl
@[simp] theorem setRlen_rlen (s : State) (n : Nat) : (s.setRlen n).rlen = n := rfl
@[simp] theorem setRlen_rst (s : State) (n : Nat) : (s.setRlen n).rst = s.rst := rfl
@[simp] theorem setRlen_csl (s : State) (n : Nat) : (s.setRlen n).csl = s.csl := rfl
@[simp] theorem setRlen_cslValid (s : State) (n : Nat) : (s.setRlen n).cslValid = s.cslValid := rfl
@[simp] theorem setRlen_resetHeld (s : State) (n : Nat) : (s.setRlen n).resetHeld = s.resetHeld := rfl
@[simp] theorem setRlen_port (s : State) (n : Nat) : (s.setRlen n).port = s.port := rfl
@[simp] theorem setRlen_delivered (s : State) (n : Nat) : (s.setRlen n).delivered = s.delivered := rfl

@[simp] theorem setRst_cfg (s : State) (r : RstState) : (s.setRst r).cfg = s.cfg := rfl
@[simp] theorem setRst_lb (s : State) (r : RstState) : (s.setRst r).lb = s.lb := rfl
@[simp] theorem setRst_llen (s : State) (r : RstState) : (s.setRst r).llen = s.llen := rfl
@[simp] theorem setRst_lovf (s : State) (r : RstState) : (s.setRst r).lovf = s.lovf := rfl
@[simp] theorem setRst_rb (s : State) (r : RstState) : (s.setRst r).rb = s.rb := rfl
@[simp] theorem setRst_rlen (s : State) (r : RstState) : (s.setRst r).rlen = s.rlen := rfl
@[simp] theorem setRst_rst (s : State) (r : RstState) : (s.setRst r).rst = r := rfl
@[simp] theorem setRst_csl (s : State) (r : RstState) : (s.setRst r).csl = s.csl := rfl
@[simp] theorem setRst_cslValid (s : State) (r : RstState) : (s.setRst r).cslValid = s.cslValid := rfl
@[simp] theorem setRst_resetHeld (s : State) (r : RstState) : (s.setRst r).resetHeld = s.resetHeld := rfl
@[simp] theorem setRst_port (s : State) (r : RstState) : (s.setRst r).port = s.port := rfl
@[simp] theorem setRst_delivered (s : State) (r : RstState) : (s.setRst r).delivered = s.delivered := rfl

@[simp] theorem setCsl_cfg (s : State) (n : Nat) : (s.setCsl n).cfg = s.cfg := rfl
@[simp] theorem setCsl_lb (s : State) (n : Nat) : (s.setCsl n).lb = s.lb := rfl
@[simp] theorem setCsl_llen (s : State) (n : Nat) : (s.setCsl n).llen = s.llen := rfl
@[simp] theorem setCsl_lovf (s : State) (n : Nat) : (s.setCsl n).lovf = s.lovf := rfl
@[simp] theorem setCsl_rb (s : State) (n : Nat) : (s.setCsl n).rb = s.rb := rfl
@[simp] theorem setCsl_rlen (s : State) (n : Nat) : (s.setCsl n).rlen = s.rlen := rfl
@[simp] theorem setCsl_rst (s : State) (n : Nat) : (s.setCsl n).rst = s.rst := rfl
@[simp] theorem setCsl_csl (s : State) (n : Nat) : (s.setCsl n).csl = n := rfl
@[simp] theorem setCsl_cslValid (s : State) (n : Nat) : (s.setCsl n).cslValid = s.cslValid := rfl
@[simp] theorem setCsl_resetHeld (s : State) (n : Nat) : (s.setCsl n).resetHeld = s.resetHeld := rfl
@[simp] theorem setCsl_port (s : State) (n : Nat) : (s.setCsl n).port = s.port := rfl
@[simp] theorem setCsl_delivered (s : State) (n : Nat) : (s.setCsl n).delivered = s.delivered := rfl

@[simp] theorem setCslValid_cfg (s : State) (b : Bool) : (s.setCslValid b).cfg = s.cfg := rfl
@[simp] theorem setCslValid_lb (s : State) (b : Bool) : (s.setCslValid b).lb = s.lb := rfl
@[simp] theorem setCslValid_llen (s : State) (b : Bool) : (s.setCslValid b).llen = s.llen := rfl
@[simp] theorem setCslValid_lovf (s : State) (b : Bool) : (s.setCslValid b).lovf = s.lovf := rfl
@[simp] theorem setCslValid_rb (s : State) (b : Bool) : (s.setCslValid b).rb = s.rb := rfl
@[simp] theorem setCslValid_rlen (s : State) (b : Bool) : (s.setCslValid b).rlen = s.rlen := rfl
@[simp] theorem setCslValid_rst (s : State) (b : Bool) : (s.setCslValid b).rst = s.rst := rfl
@[simp] theorem setCslValid_csl (s : State) (b : Bool) : (s.setCslValid b).csl = s.csl := rfl
@[simp] theorem setCslValid_cslValid (s : State) (b : Bool) : (s.setCslValid b).cslValid = b := rfl
@[simp] theorem setCslValid_resetHeld (s : State) (b : Bool) : (s.setCslValid b).resetHeld = s.resetHeld := rfl
@[simp] theorem setCslValid_port (s : State) (b : Bool) : (s.setCslValid b).port = s.port := rfl
@[simp] theorem setCslValid_delivered (s : State) (b : Bool) : (s.setCslValid b).delivered = s.delivered := rfl

@[simp] theorem deliver_cfg (s : State) (v : Option Value) (ev : List Event) : (s.deliver v ev).cfg = s.cfg := rfl
@[simp] theorem deliver_lb (s : State) (v : Option Value) (ev : List Event) : (s.deliver v ev).lb = s.lb := rfl
@[simp] theorem deliver_llen (s : State) (v : Option Value) (ev : List Event) : (s.deliver v ev).llen = s.llen := rfl
@[simp] theorem deliver_lovf (s : State) (v : Option Value) (ev : List Event) : (s.deliver v ev).lovf = s.lovf := rfl
@[simp] theorem deliver_rb (s : State) (v : Option Value) (ev : List Event) : (s.deliver v ev).rb = s.rb := rfl
@[simp] theorem deliver_rlen (s : State) (v : Option Value) (ev : List Event) : (s.deliver v ev).rlen = s.rlen := rfl
@[simp] theorem deliver_rst (s : State) (v : Option Value) (ev : List Event) : (s.deliver v ev).rst = s.rst := rfl
@[simp] theorem deliver_csl (s : State) (v : Option Value) (ev : List Event) : (s.deliver v ev).csl = s.csl := rfl
@[simp] theorem deliver_cslValid (s : State) (v : Option Value) (ev : List Event) : (s.deliver v ev).cslValid = s.cslValid := rfl
@[simp] theorem deliver_resetHeld (s : State) (v : Option Value) (ev : List Event) : (s.deliver v ev).resetHeld = s.resetHeld := rfl
@[simp] theorem deliver_port (s : State) (v : Option Value) (ev : List Event) : (s.deliver v ev).port = s.port := rfl
@[simp] theorem deliver_delivered (s : State) (v : Option Value) (ev : List Event) : (s.deliver v ev).delivered = s.delivered ++ [⟨v, ev⟩] := rfl

@[simp] theorem newSession_cfg (s : State) : s.newSession.cfg = s.cfg := rfl
@[simp] theorem newSession_lb (s : State) : s.newSession.lb = s.lb := rfl
@[simp] theorem newSession_llen (s : State) : s.newSession.llen = s.llen := rfl
@[simp] theorem newSession_lovf (s : State) : s.newSession.lovf = s.lovf := rfl
@[simp] theorem newSession_rb (s : State) : s.newSession.rb = s.rb := rfl
@[simp] theorem newSession_rlen (s : State) : s.newSession.rlen = 0 := rfl
@[simp] theorem newSession_rst (s : State) : s.newSession.rst = .idle := rfl
@[simp] theorem newSession_csl (s : State) : s.newSession.csl = 0 := rfl
@[simp] theorem newSession_cslValid (s : State) : s.newSession.cslValid = false := rfl
@[simp] theorem newSession_resetHeld (s : State) : s.newSession.resetHeld = s.resetHeld := rfl
@[simp] theorem newSession_port (s : State) : s.newSession.port = s.port := rfl
@[simp] theorem newSession_delivered (s : State) : s.newSession.delivered = s.delivered := rfl

@[simp] theorem hardReset_cfg (s : State) : s.hardReset.cfg = s.cfg := rfl
@[simp] theorem hardReset_lb (s : State) : s.hardReset.lb = s.lb := rfl
@[simp] theorem hardReset_llen (s : State) : s.hardReset.llen = 0 := rfl
@[simp] theorem hardReset_lovf (s : State) : s.hardReset.lovf = false := rfl
@[simp] theorem hardReset_rb (s : State) : s.hardReset.rb = s.rb := rfl
@[simp] theorem hardReset_rlen (s : State) : s.hardReset.rlen = 0 := rfl
@[simp] theorem hardReset_rst (s : State) : s.hardReset.rst = .idle := rfl
@[simp] theorem hardReset_csl (s : State) : s.hardReset.csl = 0 := rfl
@[simp] theorem hardReset_cslValid (s : State) : s.hardReset.cslValid = false := rfl
@[simp] theorem hardReset_resetHeld (s : State) : s.hardReset.resetHeld = s.resetHeld := rfl
@[simp] theorem hardReset_port (s : State) : s.hardReset.port = s.port := rfl
@[simp] theorem hardReset_delivered (s : State) : s.hardReset.delivered = s.delivered := rfl

@[simp] theorem resetWith_cfg (c : Cfg) : (resetWith c).cfg = c := rfl
@[simp] theorem resetWith_lb (c : Cfg) : (resetWith c).lb = [] := rfl
@[simp] theorem resetWith_llen (c : Cfg) : (resetWith c).llen = 0 := rfl
@[simp] theorem resetWith_lovf (c : Cfg) : (resetWith c).lovf = false := rfl
@[simp] theorem resetWith_rb (c : Cfg) : (resetWith c).rb = [] := rfl
@[simp] theorem resetWith_rlen (c : Cfg) : (resetWith c).rlen = 0 := rfl
@[simp] theorem resetWith_rst (c : Cfg) : (resetWith c).rst = .idle := rfl
@[simp] theorem resetWith_csl (c : Cfg) : (resetWith c).csl = 0 := rfl
@[simp] theorem resetWith_cslValid (c : Cfg) : (resetWith c).cslValid = false := rfl
@[simp] theorem resetWith_resetHeld (c : Cfg) : (resetWith c).resetHeld = false := rfl
@[simp] theorem resetWith_port (c : Cfg) : (resetWith c).port = [] := rfl
@[simp] theorem resetWith_delivered (c : Cfg) : (resetWith c).delivered = [] := rfl

end Sys2Proof.Machine.State
end

