-- ==== Sys2Proof/Laws/Ops.lean ====
section
/-! SUPPORT. One lemma for each shared operation of Machine/Ops.lean: what it can do. -/

namespace Sys2Proof.Machine

theorem memWrite_lb (s : State) (a : Nat) (v : Bytes) (h : a + v.length ≤ lineCap) :
    memWrite s .lb a v = .ok (s.setLb (s.lb.writeBytes a v)) := by
  unfold memWrite
  rw [if_neg (by simpa [capacity] using h)]
  rfl

theorem memWrite_rb (s : State) (a : Nat) (v : Bytes) (h : a + v.length ≤ s.cfg.bufCap) :
    memWrite s .rb a v = .ok (s.setRb (s.rb.writeBytes a v)) := by
  unfold memWrite
  rw [if_neg (by simpa [capacity] using h)]
  rfl

/-- A write that answers has written, inside the buffer. -/
theorem memWrite_ok {s t : State} {sp : Space} {a : Nat} {v : Bytes} (h : memWrite s sp a v = .ok t) :
    a + v.length ≤ capacity s.cfg sp ∧ t = s.setBuffer sp ((s.buffer sp).writeBytes a v) := by
  unfold memWrite at h
  split at h
  · cases h
  · cases h; exact ⟨by omega, rfl⟩

/-- A read answers exactly with the bytes that stand inside the buffer. -/
theorem memRead_eq_ok (s : State) (sp : Space) (a n : Nat) (v : Bytes) :
    memRead s sp a n = .ok v ↔ a + n ≤ capacity s.cfg sp ∧ v.length = n ∧
      ∀ i, i < n → (s.buffer sp).read (a + i) = v[i]? := by
  unfold memRead
  split
  · next h => simp; omega
  · next h =>
    rw [← Memory.readBytes_eq_some]
    constructor
    · intro h2
      split at h2
      · next w hw => cases h2; exact ⟨by omega, hw⟩
      · cases h2
    · rintro ⟨-, h2⟩; rw [h2]

theorem accept_next {s t : State} {d : Option Defect} {o : Host.Outcome State Fault Refusal}
    (h : accept s d o = .next t) : s.cfg.wf = true ∧ d = none ∧ o = .next t := by
  unfold accept at h
  split at h
  · split at h
    · exact ⟨‹_›, rfl, h⟩
    · cases h
  · cases h

theorem accept_of_wf {s : State} (h : s.cfg.wf = true) (o : Host.Outcome State Fault Refusal) :
    accept s none o = o := by simp [accept, h]

/-- `accept` adds no fault of its own. -/
theorem accept_fault {s : State} {d : Option Defect} {o : Host.Outcome State Fault Refusal} {x : Fault}
    (h : accept s d o = .fault x) : o = .fault x := by
  unfold accept at h
  split at h
  · split at h
    · exact h
    · cases h
  · cases h

/-- Why an operation that is accepted or not can be refused. -/
theorem accept_refused {s : State} {d : Option Defect} {o : Host.Outcome State Fault Refusal} {r : Refusal}
    (h : accept s d o = .refused r) :
    (s.cfg.wf = false ∧ r = .illFormedConfig) ∨ (∃ x, d = some x ∧ r = .operand x) ∨ (d = none ∧ o = .refused r) := by
  unfold accept at h
  split at h
  · split at h
    · exact .inr (.inr ⟨rfl, h⟩)
    · cases h; exact .inr (.inl ⟨_, rfl, rfl⟩)
  · next hc => cases h; exact .inl ⟨by simpa using hc, rfl⟩

/-- An operation that returns events goes on exactly when its statements do. -/
theorem finish_next {r : Effect} {t : State} (h : finish r = .next t) :
    ∃ u ev, r = .ok (u, ev) ∧ t = u.deliver none ev := by
  cases r with
  | error x => cases h
  | ok p => cases h; exact ⟨p.1, p.2, rfl, rfl⟩

@[simp] theorem finish_ok (u : State) (ev : List Event) : finish (.ok (u, ev)) = .next (u.deliver none ev) := rfl

theorem finish_ne_refused (r : Effect) (x : Refusal) : finish r ≠ .refused x := by
  cases r <;> simp [finish]

/-- Which frames are legal operands. -/
theorem frameDefect_none {f : Frame} : frameDefect f = none ↔ 1 ≤ f.length ∧ f.length ≤ 128 := by
  unfold frameDefect
  split
  · exact iff_of_true rfl ‹_›
  · exact iff_of_false (by simp) ‹_›

theorem contentDefect_none {t : Bytes} : contentDefect t = none ↔ lineTerm ∉ t := by
  unfold contentDefect
  split
  · next h => exact iff_of_false (by simp) fun hn => hn (List.contains_iff_mem.mp h)
  · next h => exact iff_of_true rfl fun hm => h (List.contains_iff_mem.mpr hm)

end Sys2Proof.Machine
end

