-- ==== Sys2Proof/Laws/Chk.lean ====
section
/-! SUPPORT. The exclusive-or of a byte sequence. -/

namespace Sys2Proof.Machine

theorem xorAll_append (a b : Bytes) : xorAll (a ++ b) = xorAll a ^^^ xorAll b := by
  induction a with
  | nil => simp [xorAll]
  | cons c cs ih => simp [xorAll, ih, BitVec.xor_assoc]

/-- The recursion agrees with an accumulating loop that starts at 0x00 (R111). -/
theorem foldl_xor (a : Bytes) (acc : Byte) : a.foldl (fun x b => x ^^^ b) acc = acc ^^^ xorAll a := by
  induction a generalizing acc with
  | nil => simp [xorAll]
  | cons c cs ih => simp [xorAll, ih, BitVec.xor_assoc]

/-- The exclusive-or does not depend on the order of the bytes. -/
theorem xorAll_perm {a b : Bytes} (h : a.Perm b) : xorAll a = xorAll b := by
  induction h with
  | nil => rfl
  | cons x _ ih => simp [xorAll, ih]
  | swap x y l => simp only [xorAll, ← BitVec.xor_assoc, BitVec.xor_comm x y]
  | trans _ _ h1 h2 => exact h1.trans h2

end Sys2Proof.Machine
end

