-- ==== Sys2Proof/Laws/Dec.lean ====
section
/-! SUPPORT. The line decoder: what a push can do, a run of content bytes in closed form, and the arrival of a line. -/

namespace Sys2Proof.Machine

/-- A pushed content byte, with room in the buffer. -/
theorem pushContent_room (c : Byte) (s : State) (h : s.llen < lineCap) :
    pushContent c s = .ok ((s.setLb (s.lb.writeBytes s.llen [c])).setLlen (s.llen + 1), []) := by
  unfold pushContent
  rw [if_pos h, memWrite_lb s s.llen [c] (by simpa using h)]
  rfl

/-- A pushed content byte, with no room. -/
theorem pushContent_full (c : Byte) (s : State) (h : ¬ s.llen < lineCap) :
    pushContent c s = .ok (s.setLovf true, []) := by
  unfold pushContent
  rw [if_neg h, lovfAfterByte, if_neg h]
  rfl

/-- The terminator, where the live bytes are `t`. -/
theorem pushTerm_of_live (s : State) (t : Bytes) (hcap : s.llen ≤ lineCap)
    (hlen : t.length = s.llen) (hlive : ∀ i, i < s.llen → s.lb.read i = t[i]?) :
    pushTerm s = .ok ((s.setLlen 0).setLovf false,
      if s.lovf then [.malformedEnvelope .overlong t] else envelopeEvents t (decodeLine s.cfg t)) := by
  have : memRead s .lb 0 s.llen = .ok t := by
    rw [memRead_eq_ok]
    exact ⟨by simpa [capacity] using hcap, hlen, by simpa [State.buffer] using hlive⟩
  unfold pushTerm
  rw [this]
  simp only [raise, emit]
  split <;> rfl

/-- The terminator, whatever it does. -/
theorem pushTerm_cases {s u : State} {ev : List Event} (h : pushTerm s = .ok (u, ev)) :
    u = (s.setLlen 0).setLovf false ∧ ∃ t, ev =
      if s.lovf then [.malformedEnvelope .overlong t] else envelopeEvents t (decodeLine s.cfg t) := by
  unfold pushTerm at h
  split at h
  · cases h
  · next t ht =>
    simp only [raise, emit] at h
    split at h <;> cases h <;> exact ⟨rfl, t, by simp [*]⟩

/-- A pushed content byte, whatever it does. -/
theorem pushContent_cases {c : Byte} {s u : State} {ev : List Event} (h : pushContent c s = .ok (u, ev)) :
    ev = [] ∧ ((s.llen < lineCap ∧ u = (s.setLb (s.lb.writeBytes s.llen [c])).setLlen (s.llen + 1)) ∨
      (¬ s.llen < lineCap ∧ u = s.setLovf true)) := by
  by_cases hr : s.llen < lineCap
  · rw [pushContent_room c s hr] at h; cases h; exact ⟨rfl, .inl ⟨hr, rfl⟩⟩
  · rw [pushContent_full c s hr] at h; cases h; exact ⟨rfl, .inr ⟨hr, rfl⟩⟩

/-- A push writes only the decoder's state. -/
theorem pushByte_frame {c : Byte} {s u : State} {ev : List Event} (h : pushByte c s = .ok (u, ev)) :
    u = { s with lb := u.lb, llen := u.llen, lovf := u.lovf } := by
  unfold pushByte at h
  split at h
  · rw [(pushTerm_cases h).1]; rfl
  · obtain ⟨-, ⟨-, rfl⟩ | ⟨-, rfl⟩⟩ := pushContent_cases h <;> rfl

theorem pushBytes_frame {v : Bytes} {s u : State} {ev : List Event} (h : pushBytes v s = .ok (u, ev)) :
    u = { s with lb := u.lb, llen := u.llen, lovf := u.lovf } := by
  induction v generalizing s ev with
  | nil => cases h; rfl
  | cons c cs ih =>
    unfold pushBytes at h
    split at h
    · cases h
    · next p hp =>
      split at h
      · cases h
      · next q hq =>
        cases h
        rw [ih hq]
        rw [pushByte_frame hp]

/-- One push after another. -/
theorem pushBytes_append {v w : Bytes} {s u : State} {ev : List Event} (h : pushBytes v s = .ok (u, ev)) :
    pushBytes (v ++ w) s = match pushBytes w u with
      | .error x => .error x
      | .ok q => .ok (q.1, ev ++ q.2) := by
  induction v generalizing s ev with
  | nil =>
    cases h
    simp only [List.nil_append]
    cases h : pushBytes w u <;> simp
  | cons c cs ih =>
    unfold pushBytes at h
    split at h
    · cases h
    · next p hp =>
      split at h
      · cases h
      · next q hq =>
        cases h
        simp only [List.cons_append, pushBytes, hp, ih hq]
        cases pushBytes w q.1 <;> simp [emit]

theorem writeBytes_append (m : Memory) (a : Nat) (v w : Bytes) :
    m.writeBytes a (v ++ w) = (m.writeBytes a v).writeBytes (a + v.length) w := by
  induction v generalizing m a with
  | nil => rfl
  | cons b bs ih =>
    simp only [List.cons_append, Memory.writeBytes, ih, List.length_cons]
    congr 1
    omega

/-- A run of content bytes in closed form: what fits is stored, the rest sets `LOVF`, no event. -/
theorem pushBytes_content (v : Bytes) (s : State) (hv : lineTerm ∉ v) (hs : s.llen ≤ lineCap) :
    pushBytes v s = .ok ({ s with
      lb := s.lb.writeBytes s.llen (v.take (lineCap - s.llen))
      llen := s.llen + min v.length (lineCap - s.llen)
      lovf := s.lovf || decide (lineCap < s.llen + v.length) }, []) := by
  induction v generalizing s with
  | nil =>
    have : ¬ lineCap < s.llen := by omega
    simp [pushBytes, emit, Memory.writeBytes, this]
  | cons c cs ih =>
    have hc : c ≠ lineTerm := by rintro rfl; simp at hv
    have hcs : lineTerm ∉ cs := fun hm => hv (List.mem_cons_of_mem _ hm)
    unfold pushBytes
    simp only [pushByte, hc, if_false]
    by_cases hr : s.llen < lineCap
    · rw [pushContent_room c s hr]
      have hk : lineCap - s.llen = (lineCap - (s.llen + 1)) + 1 := by omega
      simp only
      rw [ih _ hcs (by simp; omega)]
      simp only [emit, State.setLb, State.setLlen, List.length_cons, hk, List.take_succ_cons, Memory.writeBytes]
      congr 3
      · omega
      · congr 2
        exact propext ⟨fun h => by omega, fun h => by omega⟩
    · have he : s.llen = lineCap := by omega
      rw [pushContent_full c s hr]
      simp only
      rw [ih _ hcs (by simp; omega)]
      simp [emit, State.setLovf, he]

/-- A whole line that arrives while none is in progress. -/
theorem pushBytes_line (t : Bytes) (s : State) (ht : lineTerm ∉ t) (hl : s.llen = 0) (ho : s.lovf = false) :
    pushBytes (t ++ [lineTerm]) s = .ok ({ s with lb := s.lb.writeBytes 0 (t.take lineCap) },
      if lineCap < t.length then [.malformedEnvelope .overlong (t.take lineCap)]
      else envelopeEvents t (decodeLine s.cfg t)) := by
  rw [pushBytes_append (pushBytes_content t s ht (by omega))]
  simp only [pushBytes, pushByte, if_true, List.nil_append]
  rw [pushTerm_of_live _ (t.take lineCap) (by simp only [hl]; omega)]
  · simp only [emit, State.setLlen, State.setLovf, List.append_nil, hl, ho, Nat.sub_zero, Nat.zero_add,
      Bool.false_or, decide_eq_true_eq]
    have he : (if lineCap < t.length then [Event.malformedEnvelope .overlong (t.take lineCap)]
        else envelopeEvents (t.take lineCap) (decodeLine s.cfg (t.take lineCap))) =
        if lineCap < t.length then [.malformedEnvelope .overlong (t.take lineCap)]
        else envelopeEvents t (decodeLine s.cfg t) := by
      split
      · rfl
      · rw [List.take_of_length_le (by omega)]
    rw [he]
  · simp [hl, Nat.min_comm]
  · intro i hi
    simp only [hl, Nat.sub_zero, Nat.zero_add] at hi ⊢
    rw [Memory.read_writeBytes, if_pos (by simp; omega), Nat.sub_zero]

end Sys2Proof.Machine
end

