-- ==== Sys2Proof/Laws/Rsm.lean ====
section
/-! SUPPORT. The reassembler: what the detector, COMPLETE, the fragment step and RSM.FRAME can do. -/

namespace Sys2Proof.Machine

/-- The detector leaves the state alone or pins the length it has seen. -/
theorem detect_cases (p : Bytes) (s : State) :
    (detectorFires s p = false ∧ detect p s = (s, [])) ∨
    (detectorFires s p = true ∧
      detect p s = ((s.setCsl p.length).setCslValid true, [.canonicalLengthPinned p.length])) := by
  unfold detect
  cases h : detectorFires s p <;> simp

/-- When the detector fires: not pinned, inside the bracket, the right first byte. -/
theorem detectorFires_iff (s : State) (p : Bytes) : detectorFires s p = true ↔
    s.cslValid = false ∧ s.cfg.detMin ≤ p.length ∧ p.length ≤ s.cfg.detMax ∧ p[0]? = some s.cfg.statusMark := by
  simp [detectorFires, and_assoc]

theorem isStatusOnly_iff (s : State) (p : Bytes) : isStatusOnly s p = true ↔
    s.cslValid = true ∧ p.length = s.csl ∧ p[0]? = some s.cfg.statusMark := by
  simp [isStatusOnly, and_assoc]

theorem inCombinedBracket_iff (s : State) (p : Bytes) : inCombinedBracket s p = true ↔
    s.cslValid = true ∧ s.cfg.combMin ≤ p.length ∧ p.length ≤ s.cfg.combMax ∧ s.csl < p.length := by
  simp [inCombinedBracket, and_assoc]

theorem splitMarksOk_iff (cfg : Cfg) (p : Bytes) (k : Nat) : splitMarksOk cfg p k = true ↔
    p[k]? = some cfg.splitM0 ∧ p[k + 1]? = some cfg.splitM1 := by
  simp [splitMarksOk]

/-- Everything COMPLETE can do: the detector pins and the payload is status-only; or the state is kept and the payload is
status-only, combined or unrecognized. -/
theorem complete_cases (p : Bytes) (s : State) :
    (detectorFires s p = true ∧ complete p s = .ok ((s.setCsl p.length).setCslValid true,
      [.canonicalLengthPinned p.length, .statusOnly p])) ∨
    (detectorFires s p = false ∧ isStatusOnly s p = true ∧ complete p s = .ok (s, [.statusOnly p])) ∨
    (detectorFires s p = false ∧ isStatusOnly s p = false ∧
      (inCombinedBracket s p && splitMarksOk s.cfg p (p.length - s.csl)) = true ∧
      complete p s = .ok (s, [.combined (p.take (p.length - s.csl)) (p.drop (p.length - s.csl))])) ∨
    (detectorFires s p = false ∧ isStatusOnly s p = false ∧
      (inCombinedBracket s p && splitMarksOk s.cfg p (p.length - s.csl)) = false ∧
      complete p s = .ok (s, [.unrecognizedMessageShape p])) := by
  obtain ⟨hf, hd⟩ | ⟨hf, hd⟩ := detect_cases p s
  · right
    unfold complete
    simp only [hd, raise, emit]
    cases h1 : isStatusOnly s p
    · cases h2 : (inCombinedBracket s p && splitMarksOk s.cfg p (p.length - s.csl)) <;> simp [hf]
    · simp [hf]
  · left
    have : isStatusOnly ((s.setCsl p.length).setCslValid true) p = true := by
      rw [isStatusOnly_iff]
      exact ⟨rfl, rfl, ((detectorFires_iff s p).mp hf).2.2.2⟩
    refine ⟨hf, ?_⟩
    unfold complete
    simp [hd, emit, this]

/-- COMPLETE always answers, and writes `CSL` and `CSL_VALID` only. -/
theorem complete_ok (p : Bytes) (s : State) : ∃ u ev, complete p s = .ok (u, ev) ∧
    (u = s ∨ (detectorFires s p = true ∧ u = (s.setCsl p.length).setCslValid true)) := by
  obtain ⟨h, e⟩ | ⟨-, -, e⟩ | ⟨-, -, -, e⟩ | ⟨-, -, -, e⟩ := complete_cases p s
  · exact ⟨_, _, e, .inr ⟨h, rfl⟩⟩
  · exact ⟨_, _, e, .inl rfl⟩
  · exact ⟨_, _, e, .inl rfl⟩
  · exact ⟨_, _, e, .inl rfl⟩

/-- A fragment that does not fit. -/
theorem acceptFragment_overflow (more : Bool) (p : Bytes) (s : State) (h : s.cfg.bufCap < s.rlen + p.length) :
    acceptFragment more p s = .ok ((s.setRlen 0).setRst (if more then .resync else .idle),
      [.reassemblyOverflow s.rlen p.length]) := by
  unfold acceptFragment
  rw [if_pos h]
  rfl

/-- A fragment that fits and is not the last. -/
theorem acceptFragment_more (p : Bytes) (s : State) (h : s.rlen + p.length ≤ s.cfg.bufCap) :
    acceptFragment true p s = .ok (((s.setRb (s.rb.writeBytes s.rlen p)).setRlen (s.rlen + p.length)).setRst .accum,
      []) := by
  unfold acceptFragment
  rw [if_neg (by omega), memWrite_rb s _ _ h]
  rfl

/-- A terminal fragment that fits, where the live bytes are `l`. -/
theorem acceptFragment_last (p l : Bytes) (s : State) (h : s.rlen + p.length ≤ s.cfg.bufCap)
    (hl : l.length = s.rlen) (hlive : ∀ i, i < s.rlen → s.rb.read i = l[i]?) :
    acceptFragment false p s = complete (l ++ p) (((s.setRb (s.rb.writeBytes s.rlen p)).setRlen 0).setRst .idle) := by
  have hr : memRead ((s.setRb (s.rb.writeBytes s.rlen p)).setRlen (s.rlen + p.length)) .rb 0 (s.rlen + p.length)
      = .ok (l ++ p) := by
    rw [memRead_eq_ok]
    refine ⟨by simpa [capacity] using h, by simp [hl], fun i hi => ?_⟩
    simp only [State.buffer, State.setRlen_rb, State.setRb_rb, Nat.zero_add, Memory.read_writeBytes]
    by_cases hc : s.rlen ≤ i
    · rw [if_pos ⟨hc, hi⟩, List.getElem?_append_right (by omega), hl]
    · rw [if_neg (by omega), hlive i (by omega), List.getElem?_append_left (by omega)]
  unfold acceptFragment
  rw [if_neg (by omega), memWrite_rb s _ _ h]
  simp only [State.setRb_rlen, State.setRlen_rlen, hr]
  rfl

/-- Everything a fragment in `IDLE` or `ACCUM` can do. -/
theorem acceptFragment_cases {more : Bool} {p : Bytes} {s u : State} {ev : List Event}
    (h : acceptFragment more p s = .ok (u, ev)) :
    (s.cfg.bufCap < s.rlen + p.length ∧ u = (s.setRlen 0).setRst (if more then .resync else .idle) ∧
      ev = [.reassemblyOverflow s.rlen p.length]) ∨
    (s.rlen + p.length ≤ s.cfg.bufCap ∧ more = true ∧
      u = ((s.setRb (s.rb.writeBytes s.rlen p)).setRlen (s.rlen + p.length)).setRst .accum ∧ ev = []) ∨
    (s.rlen + p.length ≤ s.cfg.bufCap ∧ more = false ∧
      ∃ q, complete q (((s.setRb (s.rb.writeBytes s.rlen p)).setRlen 0).setRst .idle) = .ok (u, ev)) := by
  by_cases hc : s.cfg.bufCap < s.rlen + p.length
  · rw [acceptFragment_overflow more p s hc] at h
    cases h
    exact .inl ⟨hc, rfl, rfl⟩
  · right
    have hle : s.rlen + p.length ≤ s.cfg.bufCap := by omega
    cases more
    · right
      unfold acceptFragment at h
      rw [if_neg hc, memWrite_rb s _ _ hle] at h
      simp only [Bool.false_eq_true, if_false] at h
      split at h
      · cases h
      · next q hq => exact ⟨hle, rfl, q, h⟩
    · left
      rw [acceptFragment_more p s hle] at h
      cases h
      exact ⟨hle, rfl, rfl, rfl⟩

/-- Outside `RESYNC` a fragment is accepted; `IDLE` and `ACCUM` are handled alike. -/
theorem fragStep_accepting {f : Frame} {s : State} (h : s.rst ≠ .resync) :
    fragStep f s = acceptFragment (moreFlag s.cfg f) (payload s.cfg f) s := by
  unfold fragStep
  cases hr : s.rst <;> simp_all

theorem fragStep_resync {f : Frame} {s : State} (h : s.rst = .resync) :
    fragStep f s = .ok (if moreFlag s.cfg f then s else s.setRst .idle, []) := by
  unfold fragStep
  rw [h]
  rfl

/-- The receive check: dropped, or as without it. -/
theorem verified_of_pass {f : Frame} {s : State} (h : s.cfg.rxVerify = true → chkVfy f = true) (k : Effect) :
    verified f s k = k := by
  unfold verified
  cases h1 : s.cfg.rxVerify <;> simp_all

/-- Everything a received frame can do. -/
theorem receiveFrame_cases {f : Frame} {s u : State} {ev : List Event} (h : receiveFrame f s = .ok (u, ev)) :
    (s.cfg.rxVerify = true ∧ chkVfy f = false ∧ u = s ∧ ev = [.checksumMismatch f]) ∨
    (classify s.cfg f = .goKeepalive ∧ u = s ∧ ev = [.message .goKeepalive f]) ∨
    (∃ k, classify s.cfg f = .shape k ∧ u = s ∧ ev = [.message (.shape k) f]) ∨
    (classify s.cfg f = .fragment ∧ fragStep f s = .ok (u, ev)) ∨
    (classify s.cfg f = .unrecognized ∧ u = s ∧ ev = [.unrecognizedMessageShape f]) := by
  unfold receiveFrame verified at h
  split at h
  · next hv =>
    simp only [Bool.and_eq_true, Bool.not_eq_true'] at hv
    cases h
    exact .inl ⟨hv.1, hv.2, rfl, rfl⟩
  · right
    unfold receiveClass at h
    split at h
    · cases h; exact .inl ⟨‹_›, rfl, rfl⟩
    · next c hc => cases h; exact .inr (.inl ⟨c, hc, rfl, rfl⟩)
    · exact .inr (.inr (.inl ⟨‹_›, h⟩))
    · cases h; exact .inr (.inr (.inr ⟨‹_›, rfl, rfl⟩))

/-- RSM.FRAME writes only the reassembler's state. -/
theorem receiveFrame_frame {f : Frame} {s u : State} {ev : List Event} (h : receiveFrame f s = .ok (u, ev)) :
    u = { s with rb := u.rb, rlen := u.rlen, rst := u.rst, csl := u.csl, cslValid := u.cslValid } := by
  obtain ⟨-, -, rfl, -⟩ | ⟨-, rfl, -⟩ | ⟨k, -, rfl, -⟩ | ⟨-, h⟩ | ⟨-, rfl, -⟩ := receiveFrame_cases h
  · rfl
  · rfl
  · rfl
  · by_cases hr : s.rst = .resync
    · rw [fragStep_resync hr] at h
      cases h
      split <;> rfl
    · rw [fragStep_accepting hr] at h
      obtain ⟨-, rfl, -⟩ | ⟨-, -, rfl, -⟩ | ⟨-, -, q, hq⟩ := acceptFragment_cases h
      · rfl
      · rfl
      · obtain ⟨v, ev', e, rfl | ⟨-, rfl⟩⟩ := complete_ok q
          (((s.setRb (s.rb.writeBytes s.rlen (payload s.cfg f))).setRlen 0).setRst .idle)
        all_goals
          rw [hq] at e
          cases e
          rfl
  · rfl

end Sys2Proof.Machine
end

