-- ==== Sys2Proof/Laws/Sys.lean ====
section
/-! SUPPORT. What a push can report, what the pipeline can do, and what a well-formed LINE or FRAME term is. -/

namespace Sys2Proof.Machine

/-- A pushed byte reports nothing or one event. -/
theorem pushByte_events {c : Byte} {s u : State} {ev : List Event} (h : pushByte c s = .ok (u, ev)) :
    ev = [] ∨ c = lineTerm ∧ ∃ e, ev = [e] := by
  unfold pushByte at h
  split at h
  · next hc =>
    obtain ⟨-, t, e⟩ := pushTerm_cases h
    rw [e]
    split
    · exact .inr ⟨hc, _, rfl⟩
    · cases decodeLine s.cfg t <;> simp [envelopeEvents, hc]
  · exact .inl (pushContent_cases h).1

/-- Everything PIPE.PUSH can do: what DEC.PUSH does, or what RSM.FRAME does with the frame DEC.PUSH reports. -/
theorem pipeByte_cases {c : Byte} {s u : State} {ev : List Event} (h : pipeByte c s = .ok (u, ev)) :
    ∃ w ev', pushByte c s = .ok (w, ev') ∧
      (u = w ∧ ev = ev' ∨ c = lineTerm ∧ ∃ f, ev' = [.envRx f] ∧ receiveFrame f w = .ok (u, ev)) := by
  unfold pipeByte at h
  split at h
  · cases h
  · next p hp =>
    refine ⟨p.1, p.2, hp, ?_⟩
    obtain e | ⟨hc, x, e⟩ := pushByte_events hp
    · rw [e] at h ⊢; cases h; exact .inl ⟨rfl, rfl⟩
    · rw [e] at h ⊢
      simp only [pipeEvents] at h
      split at h
      · cases h
      · next q hq =>
        simp only [emit] at h
        cases h
        cases x <;> simp only [pipeEvent] at hq
        case envRx f => exact .inr ⟨hc, f, rfl, by simpa using hq⟩
        all_goals (cases hq; exact .inl ⟨rfl, rfl⟩)

/-- PIPE.PUSH writes the state of the two units and nothing else. -/
theorem pipeByte_frame {c : Byte} {s u : State} {ev : List Event} (h : pipeByte c s = .ok (u, ev)) :
    u = { s with lb := u.lb, llen := u.llen, lovf := u.lovf, rb := u.rb, rlen := u.rlen, rst := u.rst, csl := u.csl,
                 cslValid := u.cslValid } := by
  obtain ⟨w, ev', hp, ⟨rfl, -⟩ | ⟨-, f, -, hr⟩⟩ := pipeByte_cases h
  · rw [pushByte_frame hp]
  · rw [receiveFrame_frame hr, pushByte_frame hp]

/-- A FRAME term that is well-formed has its frame's class. -/
theorem classify_of_frameKind {cfg : Cfg} {k : FrameClass} {f : Frame} (h : frameKindDefect cfg k f = none) :
    frameDefect f = none ∧ classify cfg f = k := by
  unfold frameKindDefect at h
  split at h
  · cases h
  · split at h
    · exact ⟨‹_›, ‹_›⟩
    · cases h

theorem lineKind_of_other {t : Bytes} (h : otherDefect t = none) : lineTerm ∉ t ∧ lineKind t = .other := by
  unfold otherDefect at h
  split at h
  · cases h
  · split at h
    · exact ⟨contentDefect_none.mp ‹_›, ‹_›⟩
    · cases h

end Sys2Proof.Machine
end

