-- ==== Sys2Proof/Laws/Inv.lean ====
section
/-! SUPPORT. From a legal state each shared operation answers, in a legal state. -/

namespace Sys2Proof.Machine

/-- Nothing the environment drives or receives bears on legality. -/
theorem State.Inv.outside {s : State} (hi : s.Inv) (r : Bool) (p : List Input) (d : List Delivery) :
    ({ s with resetHeld := r, port := p, delivered := d } : State).Inv := by
  cases hi; constructor <;> assumption

theorem State.Inv.deliver {s : State} (hi : s.Inv) (v : Option Value) (ev : List Event) : (s.deliver v ev).Inv := by
  cases hi; constructor <;> assumption

theorem State.Inv.newSession {s : State} (hi : s.Inv) : s.newSession.Inv := by
  cases hi; constructor <;> (try assumption) <;> simp [State.newSession]

theorem State.Inv.hardReset {s : State} (hi : s.Inv) : s.hardReset.Inv := by
  cases hi; constructor <;> (try assumption) <;> simp [State.hardReset, State.newSession]

theorem pushByte_inv (c : Byte) {s : State} (hi : s.Inv) : ∃ u ev, pushByte c s = .ok (u, ev) ∧ u.Inv := by
  unfold pushByte
  split
  · obtain ⟨t, ht⟩ := Memory.readBytes_some_of_live s.lb 0 s.llen fun i h => by
      obtain ⟨b, hb, -⟩ := hi.lbLive i h
      exact ⟨b, by simpa using hb⟩
    rw [Memory.readBytes_eq_some] at ht
    refine ⟨_, _, pushTerm_of_live s t hi.llenLe ht.1 (fun i h => by simpa using ht.2 i h), ?_⟩
    cases hi
    constructor <;> (try assumption) <;> simp
  · next hc =>
    by_cases hr : s.llen < lineCap
    · refine ⟨_, _, pushContent_room c s hr, ?_⟩
      have hl : s.lovf = false := by
        cases h : s.lovf
        · rfl
        · have := hi.lovfFull h; omega
      have h1 := hi.lbLive
      have h2 := Memory.wf_writeBytes s.lb s.llen [c] hi.lbWf
      have h3 := Memory.below_writeBytes s.lb s.llen lineCap [c] hi.lbBelow (by simpa using hr)
      cases hi
      constructor <;> try assumption
      · simp [hl]
      · intro i h
        simp at h
        simp only [State.setLlen_lb, State.setLb_lb, Memory.read_writeBytes]
        by_cases he : i = s.llen
        · subst he; rw [if_pos (by simp)]; exact ⟨c, by simp, hc⟩
        · rw [if_neg (by simp; omega)]; exact h1 i (by omega)
    · refine ⟨_, _, pushContent_full c s hr, ?_⟩
      have := hi.llenLe
      cases hi
      constructor <;> try assumption
      intro _; simp; omega

theorem pushBytes_inv (v : Bytes) {s : State} (hi : s.Inv) : ∃ u ev, pushBytes v s = .ok (u, ev) ∧ u.Inv := by
  induction v generalizing s with
  | nil => exact ⟨s, [], rfl, hi⟩
  | cons c cs ih =>
    obtain ⟨u, ev, h1, h2⟩ := pushByte_inv c hi
    obtain ⟨w, ev2, h3, h4⟩ := ih h2
    exact ⟨w, ev ++ ev2, by simp [pushBytes, h1, h3, emit], h4⟩

theorem acceptFragment_inv (more : Bool) (p : Bytes) {s : State} (hi : s.Inv) :
    ∃ u ev, acceptFragment more p s = .ok (u, ev) ∧ u.Inv := by
  by_cases hc : s.cfg.bufCap < s.rlen + p.length
  · refine ⟨_, _, acceptFragment_overflow more p s hc, ?_⟩
    cases hi
    constructor <;> (try assumption) <;> simp
  · have hle : s.rlen + p.length ≤ s.cfg.bufCap := by omega
    have h1 := hi.rbLive
    have h2 := Memory.wf_writeBytes s.rb s.rlen p hi.rbWf
    have h3 := Memory.below_writeBytes s.rb s.rlen s.cfg.bufCap p hi.rbBelow hle
    cases more
    · obtain ⟨l, hl⟩ := Memory.readBytes_some_of_live s.rb 0 s.rlen fun i h => by
        obtain ⟨b, hb⟩ := h1 i h
        exact ⟨b, by simpa using hb⟩
      rw [Memory.readBytes_eq_some] at hl
      rw [acceptFragment_last p l s hle hl.1 (fun i h => by simpa using hl.2 i h)]
      have hw : (((s.setRb (s.rb.writeBytes s.rlen p)).setRlen 0).setRst .idle).Inv := by
        cases hi
        constructor <;> (try assumption) <;> simp
      obtain ⟨u, ev, e, rfl | ⟨hf, rfl⟩⟩ := complete_ok (l ++ p)
        (((s.setRb (s.rb.writeBytes s.rlen p)).setRlen 0).setRst .idle)
      · exact ⟨_, _, e, hw⟩
      · refine ⟨_, _, e, ?_⟩
        rw [detectorFires_iff] at hf
        cases hw
        constructor <;> try assumption
        · intro _; exact ⟨hf.2.1, hf.2.2.1⟩
        · simp
    · refine ⟨_, _, acceptFragment_more p s hle, ?_⟩
      cases hi
      constructor <;> try assumption
      · intro i h
        simp at h
        simp only [State.setRst_rb, State.setRlen_rb, State.setRb_rb, Memory.read_writeBytes]
        by_cases he : s.rlen ≤ i
        · rw [if_pos (by omega)]; exact ⟨_, List.getElem?_eq_getElem (by omega)⟩
        · rw [if_neg (by omega)]; exact h1 i (by omega)
      · simp
      · simp

theorem receiveFrame_inv (f : Frame) {s : State} (hi : s.Inv) : ∃ u ev, receiveFrame f s = .ok (u, ev) ∧ u.Inv := by
  unfold receiveFrame verified
  split
  · exact ⟨_, _, rfl, hi⟩
  · unfold receiveClass
    split
    · exact ⟨_, _, rfl, hi⟩
    · exact ⟨_, _, rfl, hi⟩
    · by_cases hr : s.rst = .resync
      · refine ⟨_, _, fragStep_resync hr, ?_⟩
        have := hi.resyncEmpty hr
        split
        · exact hi
        · cases hi
          constructor <;> try assumption
          · intro _; exact this
          · simp
      · rw [fragStep_accepting hr]; exact acceptFragment_inv _ _ hi
    · exact ⟨_, _, rfl, hi⟩

theorem pipeByte_inv (c : Byte) {s : State} (hi : s.Inv) : ∃ u ev, pipeByte c s = .ok (u, ev) ∧ u.Inv := by
  obtain ⟨u, ev, h1, h2⟩ := pushByte_inv c hi
  have pipe : ∀ (es : List Event) {s : State}, s.Inv → ∃ u ev, pipeEvents es s = .ok (u, ev) ∧ u.Inv := by
    intro es
    induction es with
    | nil => intro s hi; exact ⟨s, [], rfl, hi⟩
    | cons x xs ih =>
      intro s hi
      have : ∃ u ev, pipeEvent x s = .ok (u, ev) ∧ u.Inv := by
        cases x <;> first | exact receiveFrame_inv _ hi | exact ⟨_, _, rfl, hi⟩
      obtain ⟨u, ev, h1, h2⟩ := this
      obtain ⟨w, ev2, h3, h4⟩ := ih h2
      exact ⟨w, ev ++ ev2, by simp [pipeEvents, h1, h3, emit], h4⟩
  obtain ⟨w, ev2, h3, h4⟩ := pipe ev h2
  exact ⟨w, ev2, by simp [pipeByte, h1, h3], h4⟩

end Sys2Proof.Machine
end

