-- ==== Sys2Proof/Laws/PerInstr.lean ====
section
/-! SUPPORT. Statements about every instruction as syntax, one lemma a constructor. -/

namespace Sys2Proof.Laws.EncodedRow

open Sys2Proof

/-- The three formats of spec/opcode_table.json. -/
inductive Format where
  | op (code : BitVec 4)
  | line
  | frame
  deriving DecidableEq, Repr

/-- The format and, for an operation, the code of an instruction's row in the table. -/
def rowOf : Instr → Format
  | .sysStatus => .op 0b0000
  | .chkGen _ => .op 0b0001
  | .chkVfy _ => .op 0b0010
  | .chkSeal _ => .op 0b0011
  | .encRx _ => .op 0b0100
  | .encTx _ => .op 0b0101
  | .encTok _ => .op 0b0110
  | .decLine _ => .op 0b0111
  | .decPush _ => .op 0b1000
  | .fclClass _ => .op 0b1001
  | .rsmFrame _ => .op 0b1010
  | .pipePush _ => .op 0b1011
  | .sysNewsession => .op 0b1100
  | .reservedD => .op 0b1101
  | .reservedE => .op 0b1110
  | .sysReset => .op 0b1111
  | .lineBlank => .line
  | .lineRx _ => .line
  | .lineTx _ => .line
  | .lineTokReady => .line
  | .lineTokPong => .line
  | .lineTokPing => .line
  | .lineTokOther _ => .line
  | .frameGo _ => .frame
  | .frameShape _ _ => .frame
  | .frameFrag _ => .frame
  | .frameUnrecognized _ => .frame

/-- The format a transaction is presented in. -/
def formatOf : Transaction → Format
  | .op c _ => .op c
  | .line _ => .line
  | .frame _ => .frame

/-- The encoding of an instruction stands in its row's format under its row's code (R84, R77, R82). -/
def Statement (i : Instr) : Prop := formatOf (encode i) = rowOf i

theorem sysStatus : Statement .sysStatus := rfl
theorem chkGen (f : Frame) : Statement (.chkGen f) := rfl
theorem chkVfy (f : Frame) : Statement (.chkVfy f) := rfl
theorem chkSeal (f : Frame) : Statement (.chkSeal f) := rfl
theorem encRx (f : Frame) : Statement (.encRx f) := rfl
theorem encTx (f : Frame) : Statement (.encTx f) := rfl
theorem encTok (k : TokenId) : Statement (.encTok k) := rfl
theorem decLine (t : Bytes) : Statement (.decLine t) := rfl
theorem decPush (c : Byte) : Statement (.decPush c) := rfl
theorem fclClass (f : Frame) : Statement (.fclClass f) := rfl
theorem rsmFrame (f : Frame) : Statement (.rsmFrame f) := rfl
theorem pipePush (c : Byte) : Statement (.pipePush c) := rfl
theorem sysNewsession : Statement .sysNewsession := rfl
theorem reservedD : Statement .reservedD := rfl
theorem reservedE : Statement .reservedE := rfl
theorem sysReset : Statement .sysReset := rfl
theorem lineBlank : Statement .lineBlank := rfl
theorem lineRx (r : Bytes) : Statement (.lineRx r) := rfl
theorem lineTx (h : Bytes) : Statement (.lineTx h) := rfl
theorem lineTokReady : Statement .lineTokReady := rfl
theorem lineTokPong : Statement .lineTokPong := rfl
theorem lineTokPing : Statement .lineTokPing := rfl
theorem lineTokOther (t : Bytes) : Statement (.lineTokOther t) := rfl
theorem frameGo (f : Frame) : Statement (.frameGo f) := rfl
theorem frameShape (k : ShapeClass) (f : Frame) : Statement (.frameShape k f) := rfl
theorem frameFrag (f : Frame) : Statement (.frameFrag f) := rfl
theorem frameUnrecognized (f : Frame) : Statement (.frameUnrecognized f) := rfl

end Sys2Proof.Laws.EncodedRow
end

