-- ==== Sys2Proof/Laws/Port.lean ====
section
/-! SUPPORT. What the environment sees of the machine and drives into it takes no part in an operation: the reset input,
the transactions not yet taken and the deliveries already made. Each shared operation does the same beside any of them. -/

namespace Sys2Proof.Machine

/-- The reset input, the transactions presented, the deliveries made. -/
structure Outside where
  reset     : Bool
  presented : List Input
  done      : List Delivery

/-- The state `s` seen beside another environment. -/
def Outside.on (e : Outside) (s : State) : State :=
  { s with resetHeld := e.reset, port := e.presented, delivered := e.done }

/-- An effect seen beside another environment. -/
def Outside.onEffect (e : Outside) : Effect → Effect
  | .ok q => .ok (e.on q.1, q.2)
  | .error x => .error x

section
variable (e : Outside) (s : State)

@[simp] theorem Outside.on_cfg : (e.on s).cfg = s.cfg := rfl
@[simp] theorem Outside.on_lb : (e.on s).lb = s.lb := rfl
@[simp] theorem Outside.on_llen : (e.on s).llen = s.llen := rfl
@[simp] theorem Outside.on_lovf : (e.on s).lovf = s.lovf := rfl
@[simp] theorem Outside.on_rb : (e.on s).rb = s.rb := rfl
@[simp] theorem Outside.on_rlen : (e.on s).rlen = s.rlen := rfl
@[simp] theorem Outside.on_rst : (e.on s).rst = s.rst := rfl
@[simp] theorem Outside.on_csl : (e.on s).csl = s.csl := rfl
@[simp] theorem Outside.on_cslValid : (e.on s).cslValid = s.cslValid := rfl

theorem Outside.memRead_on (sp : Space) (a n : Nat) : memRead (e.on s) sp a n = memRead s sp a n := by
  cases sp <;> rfl

theorem Outside.pushByte_on (c : Byte) : pushByte c (e.on s) = e.onEffect (pushByte c s) := by
  unfold pushByte
  split
  · unfold pushTerm
    rw [Outside.memRead_on]
    simp only [Outside.on_llen, Outside.on_lovf, Outside.on_cfg]
    cases memRead s .lb 0 s.llen with
    | error x => rfl
    | ok t =>
      simp only [raise, emit]
      by_cases hb : s.lovf = true <;> simp [hb, Outside.onEffect] <;> rfl
  · by_cases h : s.llen < lineCap
    · rw [pushContent_room c s h, pushContent_room c (e.on s) h]; rfl
    · rw [pushContent_full c s h, pushContent_full c (e.on s) h]; rfl

theorem Outside.pushBytes_on (v : Bytes) : pushBytes v (e.on s) = e.onEffect (pushBytes v s) := by
  induction v generalizing s with
  | nil => rfl
  | cons c cs ih =>
    unfold pushBytes
    rw [Outside.pushByte_on]
    cases pushByte c s with
    | error x => rfl
    | ok p =>
      simp only [Outside.onEffect, ih]
      cases pushBytes cs p.1 <;> rfl

theorem Outside.complete_on (p : Bytes) : complete p (e.on s) = e.onEffect (complete p s) := by
  obtain ⟨h, a⟩ | ⟨h1, h2, a⟩ | ⟨h1, h2, h3, a⟩ | ⟨h1, h2, h3, a⟩ := complete_cases p s <;>
  obtain ⟨k, b⟩ | ⟨k1, k2, b⟩ | ⟨k1, k2, k3, b⟩ | ⟨k1, k2, k3, b⟩ := complete_cases p (e.on s)
  all_goals try (rw [a, b]; rfl)
  all_goals exfalso
  all_goals try (change detectorFires s p = _ at k)
  all_goals try (change detectorFires s p = _ at k1)
  all_goals try (change isStatusOnly s p = _ at k2)
  all_goals try (change (inCombinedBracket s p && splitMarksOk s.cfg p (p.length - s.csl)) = _ at k3)
  all_goals simp_all

theorem Outside.acceptFragment_on (m : Bool) (p : Bytes) :
    acceptFragment m p (e.on s) = e.onEffect (acceptFragment m p s) := by
  by_cases hc : s.cfg.bufCap < s.rlen + p.length
  · rw [acceptFragment_overflow m p s hc, acceptFragment_overflow m p (e.on s) hc]; rfl
  · have hle : s.rlen + p.length ≤ s.cfg.bufCap := by omega
    cases m
    · unfold acceptFragment
      rw [if_neg hc, if_neg (show ¬ (e.on s).cfg.bufCap < (e.on s).rlen + p.length from hc), memWrite_rb s _ _ hle,
        memWrite_rb (e.on s) (e.on s).rlen p hle]
      simp only [Bool.false_eq_true, if_false]
      have hw : ((e.on s).setRb ((e.on s).rb.writeBytes (e.on s).rlen p)).setRlen
          (((e.on s).setRb ((e.on s).rb.writeBytes (e.on s).rlen p)).rlen + p.length) =
          e.on ((s.setRb (s.rb.writeBytes s.rlen p)).setRlen
            ((s.setRb (s.rb.writeBytes s.rlen p)).rlen + p.length)) := rfl
      rw [hw]
      generalize (s.setRb (s.rb.writeBytes s.rlen p)).setRlen
        ((s.setRb (s.rb.writeBytes s.rlen p)).rlen + p.length) = w
      rw [Outside.memRead_on]
      simp only [Outside.on_rlen]
      cases memRead w .rb 0 w.rlen with
      | error x => rfl
      | ok q => exact Outside.complete_on e ((w.setRlen 0).setRst .idle) q
    · rw [acceptFragment_more p s hle, acceptFragment_more p (e.on s) hle]; rfl

theorem Outside.receiveFrame_on (f : Frame) : receiveFrame f (e.on s) = e.onEffect (receiveFrame f s) := by
  unfold receiveFrame verified
  rw [Outside.on_cfg]
  by_cases hv : (s.cfg.rxVerify && !chkVfy f) = true
  · rw [if_pos hv, if_pos hv]; rfl
  · rw [if_neg hv, if_neg hv]
    unfold receiveClass
    split
    · rfl
    · rfl
    · by_cases hr : s.rst = .resync
      · rw [fragStep_resync hr, fragStep_resync (s := e.on s) hr, Outside.on_cfg]
        cases moreFlag s.cfg f <;> rfl
      · rw [fragStep_accepting hr, fragStep_accepting (s := e.on s) hr]
        exact Outside.acceptFragment_on e s _ _
    · rfl

theorem Outside.pipeEvents_on (es : List Event) : pipeEvents es (e.on s) = e.onEffect (pipeEvents es s) := by
  induction es generalizing s with
  | nil => rfl
  | cons x xs ih =>
    have hx : pipeEvent x (e.on s) = e.onEffect (pipeEvent x s) := by
      cases x <;> first | exact Outside.receiveFrame_on e s _ | rfl
    unfold pipeEvents
    rw [hx]
    cases pipeEvent x s with
    | error x => rfl
    | ok p =>
      simp only [Outside.onEffect, ih]
      cases pipeEvents xs p.1 <;> rfl

theorem Outside.pipeByte_on (c : Byte) : pipeByte c (e.on s) = e.onEffect (pipeByte c s) := by
  unfold pipeByte
  rw [Outside.pushByte_on]
  cases pushByte c s with
  | error x => rfl
  | ok p => exact Outside.pipeEvents_on e p.1 p.2

end

end Sys2Proof.Machine
end

