-- ==== Sys2Proof/Laws/Pseudo.lean ====
section
/-! SUPPORT. DEC.PUSHS as a list of instructions: what its pushes do, in one lemma. -/

namespace Sys2Proof.Machine

@[simp] theorem decPushs_nil : decPushs [] = [] := rfl
@[simp] theorem decPushs_cons (c : Byte) (v : Bytes) : decPushs (c :: v) = .decPush c :: decPushs v := rfl

@[simp] theorem eventsOf_nil : eventsOf [] = [] := rfl
@[simp] theorem eventsOf_cons (d : Delivery) (ds : List Delivery) : eventsOf (d :: ds) = d.events ++ eventsOf ds := rfl

theorem exec_decPush_ok {c : Byte} {s u : State} {ev : List Event} (hw : s.cfg.wf = true)
    (h : pushByte c s = .ok (u, ev)) : exec (.decPush c) s = .next (u.deliver none ev) := by
  simp only [exec, execDecPush, accept_of_wf hw, h, finish_ok]

/-- The instructions of DEC.PUSHS do what the statements of its pushes do one after another, and the events of their
deliveries are the events of those statements. -/
theorem execAll_decPushs (v : Bytes) {s u : State} {ev : List Event} (hw : s.cfg.wf = true)
    (h : pushBytes v s = .ok (u, ev)) :
    ∃ ds, execAll (decPushs v) s = .next { u with delivered := s.delivered ++ ds } ∧ eventsOf ds = ev := by
  induction v generalizing s u ev with
  | nil => cases h; exact ⟨[], by simp [execAll], rfl⟩
  | cons c cs ih =>
    unfold pushBytes at h
    split at h
    · cases h
    · next p hp =>
      split at h
      · cases h
      · next q hq =>
        cases h
        have hf := pushByte_frame hp
        have hpd : p.1.delivered = s.delivered := by rw [hf]
        have hpc : p.1.cfg = s.cfg := by rw [hf]
        have hon := Outside.pushBytes_on ⟨p.1.resetHeld, p.1.port, s.delivered ++ [⟨none, p.2⟩]⟩ p.1 cs
        rw [hq, show Outside.on ⟨p.1.resetHeld, p.1.port, s.delivered ++ [⟨none, p.2⟩]⟩ p.1 = p.1.deliver none p.2 by
          simp [Outside.on, State.deliver, hpd]] at hon
        obtain ⟨ds, hds, hev⟩ := ih (by simpa [State.deliver, hpc] using hw) hon
        refine ⟨⟨none, p.2⟩ :: ds, ?_, by rw [eventsOf_cons, hev]⟩
        rw [decPushs_cons, execAll, exec_decPush_ok hw hp]
        simp only [hds]
        have hr : q.1.resetHeld = p.1.resetHeld := by rw [pushBytes_frame hq]
        have hq2 : q.1.port = p.1.port := by rw [pushBytes_frame hq]
        simp [State.deliver, Outside.on, hpd, hr, hq2]

end Sys2Proof.Machine
end

