-- ==== Sys2Proof/Laws/Step.lean ====
section
/-! SUPPORT. Everything one step can do when it goes on, and the reset values. -/

namespace Sys2Proof.Machine

/-- A step that goes on idles, performs the presented operation, asserts or releases reset, or takes a configuration. -/
theorem step_cases {s t : State} (h : step s = .next t) :
    (s.port = [] ∧ t = s) ∨
    (∃ rest x i, s.port = .present x :: rest ∧ s.resetHeld = false ∧ decode s.cfg x = .ok i ∧
      exec i { s with port := rest } = .next t) ∨
    (∃ rest, s.port = .resetLine true :: rest ∧
      t = { State.hardReset { s with port := rest } with resetHeld := true }) ∨
    (∃ rest, s.port = .resetLine false :: rest ∧ s.cfg.wf = true ∧ t = { s with port := rest, resetHeld := false }) ∨
    (∃ rest c, s.port = .supplyCfg c :: rest ∧ s.resetHeld = true ∧ c.wf = true ∧
      t = { State.hardReset { s with port := rest } with cfg := c, rb := [] }) := by
  unfold step at h
  split at h
  · cases h; exact .inl ⟨‹_›, rfl⟩
  · next x rest hp =>
    cases x with
    | present x =>
      simp only [takeInput, takeTransaction] at h
      split at h
      · cases h
      · next hr =>
        split at h
        · next i hd => exact .inr (.inl ⟨rest, x, i, hp, by simpa using hr, hd, h⟩)
        · split at h <;> cases h
    | resetLine b =>
      cases b
      · simp only [takeInput, takeResetLine, Bool.false_eq_true, if_false] at h
        split at h
        · cases h; exact .inr (.inr (.inr (.inl ⟨rest, hp, ‹_›, rfl⟩)))
        · cases h
      · simp only [takeInput, takeResetLine, if_true] at h
        cases h; exact .inr (.inr (.inl ⟨rest, hp, rfl⟩))
    | supplyCfg c =>
      simp only [takeInput, takeCfg] at h
      split at h
      · split at h
        · cases h; exact .inr (.inr (.inr (.inr ⟨rest, c, hp, ‹_›, ‹_›, rfl⟩)))
        · cases h
      · cases h

/-- SYS.RESET and the reset input leave the reset values. -/
theorem State.hardReset_resetValues (s : State) : s.hardReset.resetValues := ⟨rfl, rfl, rfl, rfl, rfl, rfl⟩

end Sys2Proof.Machine
end

