-- ==== Sys2Proof/Laws/Text.lean ====
section
/-! SUPPORT. The text helpers: hex digits read back, decimal digits read back, the first colon. -/

namespace Sys2Proof.Machine

/-- The decimal digits by their codes (R14). -/
theorem isdec_iff (c : Byte) : isdec c = true ↔ 0x30 ≤ c.toNat ∧ c.toNat ≤ 0x39 := by
  simp [isdec, BitVec.le_def]

/-- The hex digits of either case by their codes (R14, R76). -/
theorem ishex_iff (c : Byte) : ishex c = true ↔
    0x30 ≤ c.toNat ∧ c.toNat ≤ 0x39 ∨ 0x41 ≤ c.toNat ∧ c.toNat ≤ 0x46 ∨ 0x61 ≤ c.toNat ∧ c.toNat ≤ 0x66 := by
  simp [ishex, isdec_iff, BitVec.le_def, or_assoc]

/-- Where `decparse` is defined, and its value (R14, R75). -/
theorem decparse_eq_some (v : Bytes) (n : Nat) : decparse v = some n ↔
    1 ≤ v.length ∧ v.length ≤ 3 ∧ (∀ c, c ∈ v → isdec c = true) ∧
      v.foldl (fun acc c => acc * 10 + decval c) 0 = n := by
  unfold decparse
  split
  · next h => simpa [h.1, h.2.1] using fun _ => List.all_eq_true.mp h.2.2
  · next h =>
    rw [List.all_eq_true] at h
    exact iff_of_false (by simp) fun hn => h ⟨hn.1, hn.2.1, hn.2.2.1⟩

/-- The two digits of a byte are hex digits and read back as it; checked for all 256 bytes. -/
theorem hex2_reads_back (b : Byte) : ishex (hexdig (b >>> 4)) = true ∧ ishex (hexdig (b &&& 0x0F#8)) = true ∧
    16#8 * hexval (hexdig (b >>> 4)) + hexval (hexdig (b &&& 0x0F#8)) = b := by
  revert b
  decide +kernel

/-- No hex digit is the line terminator. -/
theorem ishex_ne_term {c : Byte} (h : ishex c = true) : c ≠ lineTerm := by
  rintro rfl
  exact absurd h (by decide)

theorem hexstr_cons (b : Byte) (f : Frame) :
    hexstr (b :: f) = hexdig (b >>> 4) :: hexdig (b &&& 0x0F#8) :: hexstr f := rfl

theorem hexstr_length (f : Frame) : (hexstr f).length = 2 * f.length := by
  induction f with
  | nil => rfl
  | cons b bs ih => simp only [hexstr_cons, List.length_cons, ih]; omega

theorem hexstr_ishex (f : Frame) : ∀ c, c ∈ hexstr f → ishex c = true := by
  induction f with
  | nil => intro c hc; cases hc
  | cons b bs ih =>
    obtain ⟨h1, h2, -⟩ := hex2_reads_back b
    intro c hc
    simp only [hexstr_cons, List.mem_cons] at hc
    obtain rfl | rfl | hc := hc
    · exact h1
    · exact h2
    · exact ih c hc

/-- Reading two digits a byte gives back the frame, under any reading of nibbles that is `hexval` on hex digits. -/
theorem pairUp_hexstr (v : Byte → Byte) (hv : ∀ c, ishex c = true → v c = hexval c) (f : Frame) :
    pairUp v (hexstr f) = f := by
  induction f with
  | nil => rfl
  | cons b bs ih =>
    obtain ⟨h1, h2, h3⟩ := hex2_reads_back b
    simp only [hexstr_cons, pairUp, hv _ h1, hv _ h2, h3, ih]

/-- In both modes the hex field of an encoded line decodes to the frame. -/
theorem hexdec_hexstr (cfg : Cfg) (f : Frame) : hexdec cfg (hexstr f) = .ok f := by
  unfold hexdec
  split
  · unfold hexdecTolerant
    rw [pairUp_hexstr _ (fun c h => by simp [h])]
  · unfold hexdecStrict
    rw [if_neg (by rw [hexstr_length]; omega), if_pos (List.all_eq_true.mpr (hexstr_ishex f)),
      pairUp_hexstr _ (fun c h => rfl)]

/-- The byte count and the bytes of a paired-up hex field. -/
theorem pairUp_length (v : Byte → Byte) (b : Bytes) : (pairUp v b).length = (b.length + 1) / 2 := by
  induction b using pairUp.induct with
  | case1 => rfl
  | case2 a => simp [pairUp]
  | case3 a c rest ih => simp only [pairUp, List.length_cons, ih]; omega

theorem pairUp_get_pair (v : Byte → Byte) (b : Bytes) : ∀ (j : Nat) (x y : Byte),
    b[2 * j]? = some x → b[2 * j + 1]? = some y → (pairUp v b)[j]? = some (16#8 * v x + v y) := by
  induction b using pairUp.induct with
  | case1 => intro j x y h; simp at h
  | case2 a => intro j x y _ h; simp at h
  | case3 a c rest ih =>
    intro j x y hx hy
    cases j with
    | zero =>
      simp only [Nat.mul_zero, List.getElem?_cons_zero, Option.some.injEq, Nat.zero_add,
        List.getElem?_cons_succ] at hx hy
      simp [pairUp, hx, hy]
    | succ k =>
      rw [show 2 * (k + 1) = 2 * k + 1 + 1 by omega] at hx
      rw [show 2 * (k + 1) + 1 = 2 * k + 1 + 1 + 1 by omega] at hy
      simp only [List.getElem?_cons_succ] at hx hy
      simpa [pairUp] using ih k x y hx hy

theorem pairUp_get_single (v : Byte → Byte) (b : Bytes) : ∀ (j : Nat) (x : Byte),
    b[2 * j]? = some x → b.length ≤ 2 * j + 1 → (pairUp v b)[j]? = some (16#8 * v x) := by
  induction b using pairUp.induct with
  | case1 => intro j x h; simp at h
  | case2 a =>
    intro j x h _
    cases j with
    | zero => simp at h; simp [pairUp, h]
    | succ k => simp [show 2 * (k + 1) = 2 * k + 1 + 1 by omega] at h
  | case3 a c rest ih =>
    intro j x hx hl
    cases j with
    | zero => simp at hl
    | succ k =>
      rw [show 2 * (k + 1) = 2 * k + 1 + 1 by omega] at hx
      simp only [List.getElem?_cons_succ] at hx
      simp only [List.length_cons] at hl
      simpa [pairUp] using ih k x hx (by omega)

/-- What stands before the first colon, and after it. -/
theorem splitColon_some (a b : Bytes) (h : colon ∉ a) : splitColon (a ++ [colon] ++ b) = some (a, b) := by
  induction a with
  | nil => simp [splitColon]
  | cons c cs ih =>
    have hc : c ≠ colon := by rintro rfl; simp at h
    have := ih fun hm => h (List.mem_cons_of_mem _ hm)
    simp only [List.append_assoc, List.singleton_append] at this
    simp [splitColon, hc, this]

theorem splitColon_none (a : Bytes) (h : colon ∉ a) : splitColon a = none := by
  induction a with
  | nil => rfl
  | cons c cs ih =>
    have hc : c ≠ colon := by rintro rfl; simp at h
    simp [splitColon, hc, ih fun hm => h (List.mem_cons_of_mem _ hm)]

/-- The decimal text of a number below 1000: at most three digits, no colon, no terminator, and it reads back; checked for
each of them. -/
theorem dec_reads_back (n : Nat) (h : n < 1000) : decparse (dec n) = some n ∧ (n ≠ 0 → (dec n)[0]? ≠ some 0x30#8) ∧
    (dec n).length ≤ 3 ∧ colon ∉ dec n ∧ lineTerm ∉ dec n := by
  have : ∀ k : Fin 1000, decparse (dec k) = some k.val ∧ (k.val ≠ 0 → (dec k)[0]? ≠ some 0x30#8) ∧
      (dec k).length ≤ 3 ∧ colon ∉ dec k ∧ lineTerm ∉ dec k := by decide +kernel
  exact this ⟨n, h⟩

end Sys2Proof.Machine
end

