-- ==== Sys2Proof/Tests/Slice0.lean ====
section
/-! SUPPORT. The author's own tests: the well-formedness smoke tests, one decoding for every constructor, and vectors of
spec/95_test_vectors.md (each names its vector), every one about one decoding or one operation. -/

namespace Sys2Proof.Tests

open Machine

/-- Bytes written as numbers. -/
def h (l : List Nat) : Bytes := l.map (BitVec.ofNat 8)

/-- A buffer holding the bytes `v` from index 0 on. -/
def cells (v : Bytes) : Memory := Memory.writeBytes [] 0 v

/-- The state of a block under `c` whose line buffer holds `l` and whose reassembly buffer holds `r`. -/
def at_ (c : Cfg) (rst : RstState) (r : Bytes) (csl : Option Nat) (l : Bytes) (lovf : Bool) : State :=
  { State.resetWith c with
    lb := cells l, llen := l.length, lovf := lovf
    rb := cells r, rlen := r.length, rst := rst
    csl := csl.getD 0, cslValid := csl.isSome }

/-- The event list of the last operation done, with the tuple of SYS.STATUS after it. -/
def seen (o : Host.Outcome State Fault Refusal) : Option (List Event × Status) :=
  match o with
  | .next s => s.delivered.getLast?.map fun d => (d.events, statusOf s)
  | .fault _ => none
  | .refused _ => none

/-- The value of the last operation done. -/
def got (o : Host.Outcome State Fault Refusal) : Option Value :=
  match o with
  | .next s => s.delivered.getLast?.bind Delivery.value
  | .fault _ => none
  | .refused _ => none

/-- Why an operation was refused. -/
def why (o : Host.Outcome State Fault Refusal) : Option Refusal :=
  match o with
  | .next _ => none
  | .fault _ => none
  | .refused r => some r

/-- The configurations of 95_test_vectors.md that differ from T1 in one parameter. -/
def cfgT1T : Cfg := { cfgT1 with hexTolerant := true }
def cfgT1V : Cfg := { cfgT1 with rxVerify := true }
def cfgT1M : Cfg := { cfgT1 with markCheck := some ⟨0, 0xAA#8, 0x55#8⟩ }
def cfgT1S : Cfg := { cfgT1 with shapes := [⟨.clockSync, 9, [(0, 0x4B#8)]⟩, ⟨.handshakeComplete, 9, []⟩,
  ⟨.programStatus18, 18, [(2, 0xA5#8), (17, 0x00#8)]⟩, ⟨.shortDiagnostic, 2, []⟩] }

/-- T2 of 95_test_vectors.md. -/
def cfgT2 : Cfg where
  hdrSize := 8
  typeOff := 5
  typeVal := 0x0A#8
  contOff := 6
  contMoreSet := 1#256 <<< 1
  markCheck := some ⟨0, 0x1C#8, 0xC1#8⟩
  bufCap := 512
  detMin := 150
  detMax := 200
  statusMark := 0x53#8
  combMin := 300
  combMax := 400
  splitM0 := 0x53#8
  splitM1 := 0x54#8
  shapes := []
  rxVerify := false
  hexTolerant := false
  versionToken := h [0x47, 0x46, 0x43, 0x52, 0x2D, 0x54, 0x32]

/-- `GO0` of 95_test_vectors.md. -/
def go0 : Frame := List.replicate 13 0x00#8 ++ h [0x47, 0x4F]

/-- The reset state under T1. -/
def s0 : State := State.reset

/-! ## Well-formedness: one ill-formed term for each check -/

/-- 95_test_vectors.md section 0: "All eight configurations are well-formed". -/
theorem test_cfgs_wf : (cfgT1.wf && cfgT1T.wf && cfgT1V.wf && cfgT1M.wf && cfgT1S.wf && cfgT2.wf) = true := by decide

theorem test_cfg_refused_hdr_small : Cfg.wf { cfgT1 with hdrSize := 1, typeOff := 0, contOff := 0 } = false := by decide

theorem test_cfg_refused_type_off : Cfg.wf { cfgT1 with typeOff := 6 } = false := by decide

theorem test_cfg_refused_cont_off : Cfg.wf { cfgT1 with contOff := 6 } = false := by decide

theorem test_cfg_refused_mark_off : Cfg.wf { cfgT1 with markCheck := some ⟨5, 0#8, 0#8⟩ } = false := by decide

theorem test_cfg_refused_buf_cap : Cfg.wf { cfgT1 with bufCap := 1 } = false := by decide

theorem test_cfg_refused_det_min : Cfg.wf { cfgT1 with detMin := 1 } = false := by decide

theorem test_cfg_refused_det_order : Cfg.wf { cfgT1 with detMin := 7 } = false := by decide

theorem test_cfg_refused_det_max : Cfg.wf { cfgT1 with detMax := 17 } = false := by decide

theorem test_cfg_refused_comb_order : Cfg.wf { cfgT1 with combMin := 13 } = false := by decide

theorem test_cfg_refused_comb_max : Cfg.wf { cfgT1 with combMax := 17 } = false := by decide

theorem test_cfg_refused_shape_len : Cfg.wf { cfgT1 with shapes := [⟨.clockSync, 0, []⟩] } = false := by decide

theorem test_cfg_refused_shape_len_long : Cfg.wf { cfgT1 with shapes := [⟨.clockSync, 129, []⟩] } = false := by decide

theorem test_cfg_refused_shape_mark : Cfg.wf { cfgT1 with shapes := [⟨.clockSync, 2, [(2, 0#8)]⟩] } = false := by decide

theorem test_cfg_refused_version_empty : Cfg.wf { cfgT1 with versionToken := [] } = false := by decide

theorem test_cfg_refused_version_term : Cfg.wf { cfgT1 with versionToken := h [0x0A] } = false := by decide

theorem test_cfg_refused_version_rx : Cfg.wf { cfgT1 with versionToken := pfxRx } = false := by decide

theorem test_cfg_refused_version_token : Cfg.wf { cfgT1 with versionToken := tokPing } = false := by decide

theorem test_cfg_refused_version_tx : Cfg.wf { cfgT1 with versionToken := pfxTx } = false := by decide

theorem test_cfg_refused_version_long : Cfg.wf { cfgT1 with versionToken := List.replicate 264 0x41#8 } = false := by decide +kernel

theorem test_cfg_refused_hdr_big : Cfg.wf { cfgT1 with hdrSize := 129 } = false := by decide

theorem test_wf_frame_empty : Instr.wf cfgT1 (.chkGen []) = false := by decide

theorem test_wf_frame_long : Instr.wf cfgT1 (.rsmFrame (List.replicate 129 0x00#8)) = false := by decide +kernel

theorem test_wf_decline_long : Instr.wf cfgT1 (.decLine (List.replicate 264 0x41#8)) = false := by decide +kernel

theorem test_wf_decline_term : Instr.wf cfgT1 (.decLine (h [0x41, 0x0A])) = false := by decide

theorem test_wf_line_term : Instr.wf cfgT1 (.lineRx (h [0x0A])) = false := by decide

theorem test_wf_other_is_rx : Instr.wf cfgT1 (.lineTokOther (pfxRx ++ h [0x31])) = false := by decide

theorem test_wf_other_term : Instr.wf cfgT1 (.lineTokOther (h [0x41, 0x0A])) = false := by decide

theorem test_wf_frame_kind : Instr.wf cfgT1 (.frameGo (h [1, 2, 3])) = false := by decide

theorem test_wf_shape_kind : Instr.wf cfgT1S (.frameShape .clockSync (h [1, 2])) = false := by decide

theorem test_wf_frame_row_empty : Instr.wf cfgT1 (.frameUnrecognized []) = false := by decide

/-! ## Decoding: every constructor, the transaction written out from R84, R72 to R81 -/

theorem test_decode_sysStatus : decode cfgT1 (.op 0b0000#4 []) = .ok (.sysStatus) := by decide

theorem test_decode_chkGen : decode cfgT1 (.op 0b0001#4 (h [0x12, 0x34, 0x56, 0x00])) = .ok (.chkGen (h [0x12, 0x34, 0x56, 0x00])) := by decide

theorem test_decode_chkVfy : decode cfgT1 (.op 0b0010#4 (h [0x12, 0x34])) = .ok (.chkVfy (h [0x12, 0x34])) := by decide

theorem test_decode_chkSeal : decode cfgT1 (.op 0b0011#4 (h [0x7F])) = .ok (.chkSeal (h [0x7F])) := by decide

theorem test_decode_encRx : decode cfgT1 (.op 0b0100#4 (h [0x47, 0x4F])) = .ok (.encRx (h [0x47, 0x4F])) := by decide

theorem test_decode_encTx : decode cfgT1 (.op 0b0101#4 (h [0xFF])) = .ok (.encTx (h [0xFF])) := by decide

theorem test_decode_encTok : decode cfgT1 (.op 0b0110#4 (h [0x02])) = .ok (.encTok .ping) := by decide

theorem test_decode_decLine : decode cfgT1 (.op 0b0111#4 (h [0x50, 0x4F, 0x4E, 0x47])) = .ok (.decLine (h [0x50, 0x4F, 0x4E, 0x47])) := by decide

theorem test_decode_decPush : decode cfgT1 (.op 0b1000#4 (h [0x0A])) = .ok (.decPush 0x0A#8) := by decide

theorem test_decode_fclClass : decode cfgT1 (.op 0b1001#4 (h [0xA5])) = .ok (.fclClass (h [0xA5])) := by decide

theorem test_decode_rsmFrame : decode cfgT1 (.op 0b1010#4 (h [0xDE, 0xAD])) = .ok (.rsmFrame (h [0xDE, 0xAD])) := by decide

theorem test_decode_pipePush : decode cfgT1 (.op 0b1011#4 (h [0x52])) = .ok (.pipePush 0x52#8) := by decide

theorem test_decode_sysNewsession : decode cfgT1 (.op 0b1100#4 []) = .ok (.sysNewsession) := by decide

theorem test_decode_reservedD : decode cfgT1 (.op 0b1101#4 []) = .ok (.reservedD) := by decide

theorem test_decode_reservedE : decode cfgT1 (.op 0b1110#4 []) = .ok (.reservedE) := by decide

theorem test_decode_sysReset : decode cfgT1 (.op 0b1111#4 []) = .ok (.sysReset) := by decide

theorem test_decode_lineBlank : decode cfgT1 (.line []) = .ok (.lineBlank) := by decide

theorem test_decode_lineRx : decode cfgT1 (.line (h [0x52, 0x58, 0x3A, 0x31, 0x3A, 0x30, 0x30])) = .ok (.lineRx (h [0x31, 0x3A, 0x30, 0x30])) := by decide

theorem test_decode_lineTx : decode cfgT1 (.line (h [0x54, 0x58, 0x3A, 0x46, 0x46])) = .ok (.lineTx (h [0x46, 0x46])) := by decide

theorem test_decode_lineTokReady : decode cfgT1 (.line (h [0x52, 0x45, 0x41, 0x44, 0x59])) = .ok (.lineTokReady) := by decide

theorem test_decode_lineTokPong : decode cfgT1 (.line (h [0x50, 0x4F, 0x4E, 0x47])) = .ok (.lineTokPong) := by decide

theorem test_decode_lineTokPing : decode cfgT1 (.line (h [0x50, 0x49, 0x4E, 0x47])) = .ok (.lineTokPing) := by decide

theorem test_decode_lineTokOther : decode cfgT1 (.line (h [0x52, 0x45, 0x41, 0x44, 0x59, 0x20])) = .ok (.lineTokOther (h [0x52, 0x45, 0x41, 0x44, 0x59, 0x20])) := by decide

theorem test_decode_frameGo : decode cfgT1 (.frame (h [0x00, 0x00, 0x00, 0x00, 0x00, 0x00, 0x00, 0x00, 0x00, 0x00, 0x00, 0x00, 0x00, 0x47, 0x4F])) = .ok (.frameGo (h [0x00, 0x00, 0x00, 0x00, 0x00, 0x00, 0x00, 0x00, 0x00, 0x00, 0x00, 0x00, 0x00, 0x47, 0x4F])) := by decide

theorem test_decode_frameFrag : decode cfgT1 (.frame (h [0x00, 0x00, 0xA5, 0x01, 0x00, 0x00, 0x99])) = .ok (.frameFrag (h [0x00, 0x00, 0xA5, 0x01, 0x00, 0x00, 0x99])) := by decide

theorem test_decode_frameUnrecognized : decode cfgT1 (.frame (h [0x00, 0x00, 0xA4, 0x01, 0x00, 0x00, 0x99])) = .ok (.frameUnrecognized (h [0x00, 0x00, 0xA4, 0x01, 0x00, 0x00, 0x99])) := by decide

/-- V-FCL-23: an exact shape wins over the fragment test. -/
theorem test_decode_frameShape : decode cfgT1S (.frame (h [0x4B, 0x00, 0xA5, 0x01, 0x00, 0x00, 0x00, 0x00, 0x00])) = .ok (.frameShape .clockSync (h [0x4B, 0x00, 0xA5, 0x01, 0x00, 0x00, 0x00, 0x00, 0x00])) := by decide

theorem test_decode_rejects_shape : decode cfgT1 (.op 0x0#4 [0x00#8]) = .error .operandShape := by decide

theorem test_decode_rejects_token : decode cfgT1 (.op 0x6#4 [0x04#8]) = .error .tokenId := by decide

theorem test_decode_rejects_byte : decode cfgT1 (.op 0x8#4 []) = .error .operandShape := by decide

theorem test_decode_rejects_frame : decode cfgT1 (.op 0x1#4 []) = .error .frameLength := by decide

theorem test_decode_rejects_line : decode cfgT1 (.line (h [0x52, 0x58, 0x3A, 0x0A])) = .error .lineHasTerminator := by decide

/-! ## Table words -/

theorem test_table_word_op : decodeTableWord 8 0x4 = some (.encRx [0x00#8]) := by decide

theorem test_table_word_push : decodeTableWord 8 0x8 = some (.decPush 0x00#8) := by decide

theorem test_table_word_rx : decodeTableWord 24 0x52583A = some (.lineRx []) := by decide

theorem test_table_word_tx : decodeTableWord 24 0x54583A = some (.lineTx []) := by decide

theorem test_table_word_pong : decodeTableWord 32 0x504F4E47 = some (.lineTokPong) := by decide

theorem test_table_word_ping : decodeTableWord 32 0x50494E47 = some (.lineTokPing) := by decide

theorem test_table_word_ready : decodeTableWord 40 0x5245414459 = some (.lineTokReady) := by decide

theorem test_table_word_go : decodeTableWord 16 0x474F = some (.frameGo go0) := by decide

theorem test_table_word_resd : decodeTableWord 8 0xD = some (.reservedD) := by decide

/-! ## CHK (section 2.1) -/

/-- V-CHK-4. -/
theorem test_chkGen_covered : got (exec (.chkGen (h [0x12, 0x34, 0x56, 0xFF])) (State.resetWith cfgT1)) = some (.byte 0x70#8) := by decide

/-- V-CHK-9. -/
theorem test_chkGen_go : got (exec (.chkGen go0) (State.resetWith cfgT1)) = some (.byte 0x47#8) := by decide

/-- V-CHK-22. -/
theorem test_chkVfy_true : got (exec (.chkVfy (h [0x12, 0x34, 0x56, 0x70])) (State.resetWith cfgT1)) = some (.bool true) := by decide

/-- V-CHK-26. -/
theorem test_chkVfy_go : got (exec (.chkVfy go0) (State.resetWith cfgT1)) = some (.bool false) := by decide

/-- V-CHK-44. -/
theorem test_chkSeal_overwrites : got (exec (.chkSeal (h [0x12, 0x34, 0x56, 0xAB])) (State.resetWith cfgT1)) = some (.frame (h [0x12, 0x34, 0x56, 0x70])) := by decide

/-- V-CHK-41. -/
theorem test_chkSeal_one : got (exec (.chkSeal (h [0x7F])) (State.resetWith cfgT1)) = some (.frame (h [0x00])) := by decide

/-- V-CHK-12. -/
theorem test_chkGen_empty_refused : why (exec (.chkGen []) s0) = some (.operand .frameLength) := by decide

/-! ## ENC (section 2.2) -/

/-- V-ENC-6. -/
theorem test_encRx_digits : got (exec (.encRx (h [0x20, 0x21, 0x22, 0x23, 0x24, 0x25, 0x26, 0x27, 0x28, 0x29])) (State.resetWith cfgT1)) = some (.line (h [0x52, 0x58, 0x3A, 0x31, 0x30, 0x3A, 0x32, 0x30, 0x32, 0x31, 0x32, 0x32, 0x32, 0x33, 0x32, 0x34, 0x32, 0x35, 0x32, 0x36, 0x32, 0x37, 0x32, 0x38, 0x32, 0x39, 0x0A])) := by decide

/-- V-ENC-5. -/
theorem test_encRx_nibbles : got (exec (.encRx (h [0x0F, 0xF0])) (State.resetWith cfgT1)) = some (.line (h [0x52, 0x58, 0x3A, 0x32, 0x3A, 0x30, 0x46, 0x46, 0x30, 0x0A])) := by decide

/-- V-ENC-12. -/
theorem test_encTx_ff : got (exec (.encTx (h [0xFF])) (State.resetWith cfgT1)) = some (.line (h [0x54, 0x58, 0x3A, 0x46, 0x46, 0x0A])) := by decide

/-- V-ENC-11. -/
theorem test_encTx_cmd : got (exec (.encTx (h [0x12, 0x34, 0x56, 0x70])) (State.resetWith cfgT1)) = some (.line (h [0x54, 0x58, 0x3A, 0x31, 0x32, 0x33, 0x34, 0x35, 0x36, 0x37, 0x30, 0x0A])) := by decide

/-- V-ENC-16. -/
theorem test_encTok_pong : got (exec (.encTok .pong) (State.resetWith cfgT1)) = some (.line (h [0x50, 0x4F, 0x4E, 0x47, 0x0A])) := by decide

/-- V-ENC-18. -/
theorem test_encTok_version : got (exec (.encTok .version) (State.resetWith cfgT2)) = some (.line (h [0x47, 0x46, 0x43, 0x52, 0x2D, 0x54, 0x32, 0x0A])) := by decide

/-! ## DEC (section 2.3) -/

/-- V-DEC-4. -/
theorem test_decLine_rx_case : decodeLine cfgT1 (h [0x52, 0x58, 0x3A, 0x32, 0x3A, 0x34, 0x37, 0x41, 0x66]) = .rxFrame (h [0x47, 0xAF]) := by decide

/-- V-DEC-7. -/
theorem test_decLine_rx_len_long : decodeLine cfgT1 (h [0x52, 0x58, 0x3A, 0x30, 0x30, 0x30, 0x32, 0x3A, 0x34, 0x37, 0x34, 0x46]) = .malformed .badLen := by decide

/-- V-DEC-14. -/
theorem test_decLine_rx_no_sep : decodeLine cfgT1 (h [0x52, 0x58, 0x3A, 0x31, 0x30, 0x30]) = .malformed .noLenSep := by decide

/-- V-DEC-15. -/
theorem test_decLine_rx_zero : decodeLine cfgT1 (h [0x52, 0x58, 0x3A, 0x30, 0x3A]) = .malformed .badSize := by decide

/-- V-DEC-19. -/
theorem test_decLine_rx_mismatch_first : decodeLine cfgT1 (h [0x52, 0x58, 0x3A, 0x39, 0x39, 0x39, 0x3A, 0x30, 0x30]) = .malformed .lenMismatch := by decide

/-- V-DEC-29. -/
theorem test_decLine_rx_odd_first : decodeLine cfgT1 (h [0x52, 0x58, 0x3A, 0x32, 0x3A, 0x34]) = .malformed .oddHex := by decide

/-- V-DEC-26. -/
theorem test_decLine_rx_colon : decodeLine cfgT1 (h [0x52, 0x58, 0x3A, 0x32, 0x3A, 0x34, 0x37, 0x3A, 0x34, 0x46, 0x30]) = .malformed .nonHex := by decide

/-- V-DEC-32. -/
theorem test_decLine_tx_empty : decodeLine cfgT1 (h [0x54, 0x58, 0x3A]) = .malformed .badSize := by decide

/-- V-DEC-45. -/
theorem test_decLine_token_cr : decodeLine cfgT1 (h [0x50, 0x4F, 0x4E, 0x47, 0x0D]) = .token .other (h [0x50, 0x4F, 0x4E, 0x47, 0x0D]) := by decide

/-- V-DEC-104. -/
theorem test_decLine_tolerant_odd : decodeLine cfgT1T (h [0x54, 0x58, 0x3A, 0x31, 0x32, 0x33]) = .txFrame (h [0x12, 0x30]) := by decide

/-- V-DEC-112. -/
theorem test_decLine_tolerant_colon : decodeLine cfgT1T (h [0x52, 0x58, 0x3A, 0x33, 0x3A, 0x34, 0x37, 0x3A, 0x34, 0x46]) = .rxFrame (h [0x47, 0x04, 0xF0]) := by decide

/-- V-DEC-2. -/
theorem test_decLine_op : got (exec (.decLine (h [0x52, 0x58, 0x3A, 0x32, 0x3A, 0x34, 0x37, 0x34, 0x46])) (State.resetWith cfgT1)) = some (.envelope (.rxFrame (h [0x47, 0x4F]))) := by decide

/-- R150. -/
theorem test_decLine_term_refused : why (exec (.decLine (h [0x41, 0x0A])) s0) = some (.operand .lineHasTerminator) := by decide

/-- V-PUSH-10. -/
theorem test_decPush_line : seen (exec (.decPush lineTerm) (at_ cfgT1 .idle [] none (h [0x54, 0x58, 0x3A, 0x30, 0x47]) false)) = some ([.malformedEnvelope .nonHex (h [0x54, 0x58, 0x3A, 0x30, 0x47])], ⟨.idle, 0, false, 0, 0, false⟩) := by decide

/-- V-PUSH-11. -/
theorem test_decPush_tolerant : seen (exec (.decPush lineTerm) (at_ cfgT1T .idle [] none (h [0x54, 0x58, 0x3A, 0x30, 0x47]) false)) = some ([.envTx (h [0x00])], ⟨.idle, 0, false, 0, 0, false⟩) := by decide

/-! ## FCL (section 2.4) -/

/-- V-FCL-2. -/
theorem test_fclClass_go_wins : got (exec (.fclClass (h [0x00, 0x00, 0xA5, 0x01, 0x00, 0x00, 0x00, 0x00, 0x00, 0x00, 0x00, 0x00, 0x00, 0x47, 0x4F])) (State.resetWith cfgT1)) = some (.cls .goKeepalive) := by decide

/-- V-FCL-18. -/
theorem test_fclClass_marker : got (exec (.fclClass (h [0xAA, 0x54, 0xA5, 0x01, 0x00, 0x00, 0x99])) (State.resetWith cfgT1M)) = some (.cls .unrecognized) := by decide

/-- V-FCL-9. -/
theorem test_classify_short : classify cfgT1 (h [0x00, 0x00, 0xA5, 0x00, 0x00]) = .unrecognized := by decide

/-- V-FCL-22. -/
theorem test_classify_second_shape : classify cfgT1S (h [0x00, 0x00, 0x00, 0x00, 0x00, 0x00, 0x00, 0x00, 0x00]) = .shape .handshakeComplete := by decide

/-- V-FCL-26. -/
theorem test_classify_mark_fails : classify cfgT1S (h [0x00, 0x00, 0xA5, 0x00, 0x00, 0x00, 0x00, 0x00, 0x00, 0x00, 0x00, 0x00, 0x00, 0x00, 0x00, 0x00, 0x00, 0x01]) = .fragment := by decide

/-! ## RSM (section 2.5) -/

/-- V-RSM-1. -/
theorem test_rsm_pins : seen (exec (.rsmFrame (h [0x00, 0x00, 0xA5, 0x00, 0x00, 0x00, 0x53, 0x01, 0x02, 0x03])) (s0)) = some ([.canonicalLengthPinned 4, .statusOnly (h [0x53, 0x01, 0x02, 0x03])], ⟨.idle, 0, true, 4, 0, false⟩) := by decide

/-- V-RSM-10, its second operation. -/
theorem test_rsm_combined : seen (exec (.rsmFrame (h [0x00, 0x00, 0xA5, 0x00, 0x00, 0x00, 0xC5, 0x5C, 0x77, 0x88])) (at_ cfgT1 .accum (h [0xC0, 0xC1, 0xC2, 0xC3]) (some 4) [] false)) = some ([.combined (h [0xC0, 0xC1, 0xC2, 0xC3]) (h [0xC5, 0x5C, 0x77, 0x88])], ⟨.idle, 0, true, 4, 0, false⟩) := by decide

/-- V-RSM-20, its second operation. -/
theorem test_frag_overflow_more : (fragStep (h [0x00, 0x00, 0xA5, 0x01, 0x00, 0x00, 0xE0, 0xE1, 0xE2, 0xE3, 0xE4, 0xE5, 0xE6]) (at_ cfgT1 .accum (h [0xD0, 0xD1, 0xD2, 0xD3, 0xD4, 0xD5, 0xD6, 0xD7, 0xD8, 0xD9]) none [] false)).toOption.map (fun p => (p.2, statusOf p.1)) = some ([.reassemblyOverflow 10 7], ⟨.resync, 0, false, 0, 0, false⟩) := by decide

/-- V-RSM-21, its second operation. -/
theorem test_frag_overflow_terminal : (fragStep (h [0x00, 0x00, 0xA5, 0x00, 0x00, 0x00, 0xE0, 0xE1, 0xE2, 0xE3, 0xE4, 0xE5, 0xE6]) (at_ cfgT1 .accum (h [0xD0, 0xD1, 0xD2, 0xD3, 0xD4, 0xD5, 0xD6, 0xD7, 0xD8, 0xD9]) none [] false)).toOption.map (fun p => (p.2, statusOf p.1)) = some ([.reassemblyOverflow 10 7], ⟨.idle, 0, false, 0, 0, false⟩) := by decide

/-- V-RSM-20, its sixth operation. -/
theorem test_frag_resync_ends : (fragStep (h [0x00, 0x00, 0xA5, 0x00, 0x00, 0x00, 0x53, 0x01, 0x02, 0x03]) (at_ cfgT1 .resync [] none [] false)).toOption.map (fun p => (p.2, statusOf p.1)) = some ([], ⟨.idle, 0, false, 0, 0, false⟩) := by decide

/-- V-RSM-12. -/
theorem test_complete_split_wrong : (complete (h [0xC0, 0xC1, 0xC2, 0xC3, 0x5C, 0xC5, 0x77, 0x88]) (at_ cfgT1 .idle [] (some 4) [] false)).toOption.map (fun p => p.2) = some [.unrecognizedMessageShape (h [0xC0, 0xC1, 0xC2, 0xC3, 0x5C, 0xC5, 0x77, 0x88])] := by decide

/-! ## The table's frame shapes and lines -/

/-- V-RSM-40: the GoKeepalive is dropped when RX_VERIFY is set. -/
theorem test_frameGo_verify : seen (exec (.frameGo go0) (State.resetWith cfgT1V)) = some ([.checksumMismatch go0], ⟨.idle, 0, false, 0, 0, false⟩) := by decide

/-- V-RSM-20, its fourth operation. -/
theorem test_frameGo_resync : seen (exec (.frameGo go0) (at_ cfgT1 .resync [] none [] false)) = some ([.message .goKeepalive go0], ⟨.resync, 0, false, 0, 0, false⟩) := by decide

/-- V-RSM-41. -/
theorem test_frameShape_message : seen (exec (.frameShape .shortDiagnostic (h [0x12, 0x34])) (State.resetWith cfgT1S)) = some ([.message (.shape .shortDiagnostic) (h [0x12, 0x34])], ⟨.idle, 0, false, 0, 0, false⟩) := by decide

/-- V-RSM-2, its first operation. -/
theorem test_frameFrag_more : seen (exec (.frameFrag (h [0x00, 0x00, 0xA5, 0x01, 0x00, 0x00, 0x53, 0x11])) (s0)) = some ([], ⟨.accum, 2, false, 0, 0, false⟩) := by decide

/-- V-RSM-30, its third operation. -/
theorem test_frameUnrecognized_kept : seen (exec (.frameUnrecognized (h [0xDE, 0xAD])) (at_ cfgT1 .accum (h [0x53, 0x11]) none [] false)) = some ([.unrecognizedMessageShape (h [0xDE, 0xAD])], ⟨.accum, 2, false, 0, 0, false⟩) := by decide

/-- V-PUSH-4. -/
theorem test_lineBlank_silent : seen (exec (.lineBlank) (s0)) = some ([], ⟨.idle, 0, false, 0, 0, false⟩) := by decide

/-- V-PUSH-2. -/
theorem test_lineRx_frame : seen (exec (.lineRx (h [0x32, 0x3A, 0x34, 0x37, 0x34, 0x46])) (s0)) = some ([.envRx (h [0x47, 0x4F])], ⟨.idle, 0, false, 0, 0, false⟩) := by decide

/-- V-PUSH-7. -/
theorem test_lineTx_cr : seen (exec (.lineTx (h [0x30, 0x30, 0x0D])) (s0)) = some ([.malformedEnvelope .oddHex (h [0x54, 0x58, 0x3A, 0x30, 0x30, 0x0D])], ⟨.idle, 0, false, 0, 0, false⟩) := by decide

/-- P2, line L1. -/
theorem test_lineTokReady_token : seen (exec (.lineTokReady) (s0)) = some ([.envToken .ready tokReady], ⟨.idle, 0, false, 0, 0, false⟩) := by decide

/-- V-PUSH-3. -/
theorem test_lineTokPong_token : seen (exec (.lineTokPong) (s0)) = some ([.envToken .pong tokPong], ⟨.idle, 0, false, 0, 0, false⟩) := by decide

/-- P2, line L11. -/
theorem test_lineTokPing_token : seen (exec (.lineTokPing) (s0)) = some ([.envToken .ping tokPing], ⟨.idle, 0, false, 0, 0, false⟩) := by decide

/-- V-PUSH-14. -/
theorem test_lineTokOther_bytes : seen (exec (.lineTokOther (h [0x00, 0xFF])) (s0)) = some ([.envToken .other (h [0x00, 0xFF])], ⟨.idle, 0, false, 0, 0, false⟩) := by decide

/-! ## System operations (section 2.6) -/

/-- V-SYS-11. -/
theorem test_pipePush_consumes : seen (exec (.pipePush lineTerm) (at_ cfgT1 .idle [] none (h [0x52, 0x58, 0x3A, 0x32, 0x3A, 0x30, 0x31, 0x30, 0x32]) false)) = some ([.unrecognizedMessageShape (h [0x01, 0x02])], ⟨.idle, 0, false, 0, 0, false⟩) := by decide

/-- V-SYS-12: the reassembler is not invoked. -/
theorem test_pipePush_malformed : seen (exec (.pipePush lineTerm) (at_ cfgT1 .accum (h [0x53]) none (h [0x52, 0x58, 0x3A, 0x32, 0x3A, 0x30, 0x31]) false)) = some ([.malformedEnvelope .lenMismatch (h [0x52, 0x58, 0x3A, 0x32, 0x3A, 0x30, 0x31])], ⟨.accum, 1, false, 0, 0, false⟩) := by decide

/-- V-SYS-3. -/
theorem test_newsession_keeps_line : seen (exec (.sysNewsession) (at_ cfgT1 .accum (h [0xAA, 0xBB, 0xCC]) (some 4) (h [0x52, 0x58, 0x3A, 0x32, 0x3A, 0x34, 0x37]) false)) = some ([], ⟨.idle, 0, false, 0, 7, false⟩) := by decide

/-- R248. -/
theorem test_reset_clears : seen (exec (.sysReset) (at_ cfgT1 .accum (h [0xAA, 0xBB, 0xCC]) (some 4) (h [0x52, 0x58, 0x3A, 0x32, 0x3A, 0x34, 0x37]) false)) = some ([], ⟨.idle, 0, false, 0, 0, false⟩) := by decide

/-- V-SYS-1. -/
theorem test_status_value : got (exec (.sysStatus) (State.resetWith cfgT1)) = some (.status ⟨.idle, 0, false, 0, 0, false⟩) := by decide

/-- V-SYS-13. -/
theorem test_reservedD_refused : why (exec .reservedD s0) = some (.reservedOperation 0xD) := by decide

/-- V-SYS-13. -/
theorem test_reservedE_refused : why (exec .reservedE s0) = some (.reservedOperation 0xE) := by decide

/-! ## The step -/

theorem test_step_fetches : seen (step (s0.withFetchWord 16 0x474F)) = some ([.message .goKeepalive go0], ⟨.idle, 0, false, 0, 0, false⟩) := by decide

theorem test_step_idle : (match step s0 with | .next s => decide (s = s0) | _ => false) = true := by decide

theorem test_step_held : why (step { s0 with resetHeld := true, port := [.present (.op 0x0 [])] }) = some .heldInReset := by decide

theorem test_step_reconfigures : (match step { s0 with resetHeld := true, port := [.supplyCfg cfgT2] } with | .next s => decide (s.cfg = cfgT2) | _ => false) = true := by decide

/-- R9. -/
theorem test_illformed_cfg_refused : why (exec .sysStatus (State.resetWith { cfgT1 with bufCap := 1 })) = some .illFormedConfig := by decide

end Sys2Proof.Tests
end

