-- ==== Sys2Proof/Tests/Witness.lean ====
section
/-! SUPPORT. For every statement with hypotheses, a concrete state and operands that meet all of them together; for a
statement of several clauses one for each clause, at a boundary value of its range. -/

namespace Sys2Proof.Tests

open Machine

/-- A fragment under T1: six header bytes, the type byte 0xA5 at offset 2, the flag at offset 3, then the payload. -/
def frag (flag : Nat) (p : List Nat) : Frame := h [0, 0, 0xA5, flag, 0, 0] ++ h p

/-- `n` times the letter A. -/
def aa (n : Nat) : Bytes := List.replicate n 0x41#8

/-- A legal state: what the two buffers hold, and the registers that go with it. -/
theorem at_inv (c : Cfg) (rst : RstState) (r : Bytes) (csl : Option Nat) (l : Bytes) (lovf : Bool) (hc : c.wf = true)
    (hl : l.length ≤ 263) (hv : lovf = true → l.length = 263) (ht : lineTerm ∉ l) (hr : r.length ≤ c.bufCap)
    (hi : rst = .accum ∨ r = []) (hs : ∀ n, csl = some n → c.detMin ≤ n ∧ n ≤ c.detMax) :
    (at_ c rst r csl l lovf).Inv := by
  have live : ∀ (v : Bytes) (i : Nat), i < v.length → ∃ b, (cells v).read i = some b ∧ b ∈ v := by
    intro v i h
    refine ⟨v[i], ?_, List.getElem_mem h⟩
    unfold cells
    rw [Memory.read_writeBytes, if_pos (by omega)]
    simp
  have he : rst ≠ .accum → r.length = 0 := by
    intro h
    obtain h' | rfl := hi
    · exact absurd h' h
    · rfl
  constructor
  · exact hc
  · exact Memory.wf_writeBytes [] 0 l rfl
  · exact Memory.wf_writeBytes [] 0 r rfl
  · exact Memory.below_writeBytes [] 0 lineCap l rfl (by rw [Nat.zero_add]; exact hl)
  · exact Memory.below_writeBytes [] 0 c.bufCap r rfl (by simpa using hr)
  · exact hl
  · exact hv
  · intro i h
    obtain ⟨b, hb, hm⟩ := live l i h
    exact ⟨b, hb, fun e => ht (e ▸ hm)⟩
  · exact hr
  · intro i h
    obtain ⟨b, hb, -⟩ := live r i h
    exact ⟨b, hb⟩
  · exact fun h => he (by rw [show rst = .idle from h]; simp)
  · exact fun h => he (by rw [show rst = .resync from h]; simp)
  · intro h
    cases csl with
    | none => cases h
    | some n => exact hs n rfl
  · intro h
    cases csl with
    | none => rfl
    | some n => cases h

theorem cells_live (v : Bytes) : liveBytes (cells v) v.length v := by
  refine ⟨rfl, fun i h => ?_⟩
  unfold cells
  rw [Memory.read_writeBytes, if_pos (by omega), Nat.sub_zero]

theorem live_lb (c : Cfg) (rst : RstState) (r : Bytes) (csl : Option Nat) (l : Bytes) (lovf : Bool) :
    liveBytes (at_ c rst r csl l lovf).lb (at_ c rst r csl l lovf).llen l := cells_live l

theorem live_rb (c : Cfg) (rst : RstState) (r : Bytes) (csl : Option Nat) (l : Bytes) (lovf : Bool) :
    liveBytes (at_ c rst r csl l lovf).rb (at_ c rst r csl l lovf).rlen r := cells_live r

/-- The outcome is a next state. -/
def runs (o : Host.Outcome State Fault Refusal) : Bool :=
  match o with
  | .next _ => true
  | .fault _ => false
  | .refused _ => false

theorem goesOn_of_runs {o : Host.Outcome State Fault Refusal} (h : runs o = true) : ∃ t, o = .next t := by
  cases o with
  | next t => exact ⟨t, rfl⟩
  | fault x => cases h
  | refused r => cases h

/-- The next state, where there is one. -/
def after (o : Host.Outcome State Fault Refusal) (s : State) : State :=
  match o with
  | .next t => t
  | .fault _ => s
  | .refused _ => s

theorem next_after {o : Host.Outcome State Fault Refusal} {s : State} (h : runs o = true) : o = .next (after o s) := by
  cases o with
  | next t => rfl
  | fault x => cases h
  | refused r => cases h

/-- Every constructor, frames of 1 and of 128 bytes, a content of 263 bytes. -/
theorem witness_DecodeOfEncodeIsInstruction :
    ∀ i ∈ ([.sysStatus, .chkGen (h [0x12]), .chkVfy (List.replicate 128 0x5A#8), .chkSeal (h [0x12]), .encRx (List.replicate 128 0x5A#8), .encTx (h [0x12]), .encTok .version, .decLine (aa 263), .decPush 0xFF#8, .fclClass (h [0x12]), .rsmFrame (List.replicate 128 0x5A#8), .pipePush 0x0A#8, .sysNewsession, .reservedD, .reservedE, .sysReset, .lineBlank, .lineRx [], .lineTx (aa 300), .lineTokReady, .lineTokPong, .lineTokPing, .lineTokOther (aa 264), .frameGo go0, .frameShape .shortDiagnostic (h [1, 2]), .frameFrag (frag 1 []), .frameUnrecognized (h [0])] : List Instr), i.wf cfgT1S = true := by decide +kernel

theorem witness_DecodedTransactionReencodes :
    (decode cfgT1 (.op 0x6 [0x03#8]) = .ok (.encTok .version)) ∧
    (decode cfgT1S (.line (h [0x52, 0x58, 0x3A])) = .ok (.lineRx [])) ∧
    (decode cfgT1S (.frame (h [1, 2])) = .ok (.frameShape .shortDiagnostic (h [1, 2]))) :=
  ⟨by decide, by decide, by decide⟩

theorem witness_ReservedCodesAreRefused :
    s0.cfg.wf = true := by decide

/-- The reset state with `p` presented, reset asserted or not. -/
def presenting (p : List Input) (held : Bool) : State := { s0 with port := p, resetHeld := held }

theorem witness_StepPerformsOldestTransaction :
    ((presenting [.present (.op 0x0 [])] false).port = .present (.op 0x0 []) :: []) ∧
    ((presenting [.present (.op 0x0 [])] false).resetHeld = false) ∧
    ((presenting [.present (.op 0x0 [])] false).cfg.wf = true) ∧
    (decode s0.cfg (.op 0x0 []) = .ok .sysStatus) ∧
    (decode s0.cfg (.op 0x0 [0x00#8]) = .error .operandShape) :=
  ⟨by decide, by decide, by decide, by decide, by decide⟩

theorem witness_StepIdlesWhenNothingPresented :
    s0.port = [] := by decide

theorem witness_ResetInputActsAsReset :
    ((presenting [.resetLine true] false).port = [.resetLine true]) ∧
    ((presenting [.present (.op 0x0 [])] true).port = [.present (.op 0x0 [])]) ∧
    ((presenting [.present (.op 0x0 [])] true).resetHeld = true) ∧
    ((presenting [.resetLine false] true).port = [.resetLine false]) ∧
    ((presenting [.resetLine false] true).cfg.wf = true) ∧
    (({ presenting [.resetLine false] true with cfg := { cfgT1 with bufCap := 1 } } : State).port = [.resetLine false]) ∧
    (({ presenting [.resetLine false] true with cfg := { cfgT1 with bufCap := 1 } } : State).cfg.wf = false) ∧
    ((presenting [.resetLine false] true).resetHeld = true) ∧
    ((presenting [.resetLine false] true).heldHasResetValues) :=
  ⟨by decide, by decide, by decide, by decide, by decide, by decide, by decide, by decide, fun _ => ⟨rfl, rfl, rfl, rfl, rfl, rfl⟩⟩

theorem witness_ConfigurationChangesOnlyInReset :
    (step (presenting [.supplyCfg cfgT2] true) = .next (after (step (presenting [.supplyCfg cfgT2] true)) s0)) ∧
    ((after (step (presenting [.supplyCfg cfgT2] true)) s0).cfg ≠ (presenting [.supplyCfg cfgT2] true).cfg) ∧
    ((presenting [.supplyCfg cfgT2] true).port = [.supplyCfg cfgT2] ∧ (presenting [.supplyCfg cfgT2] true).resetHeld = true ∧ cfgT2.wf = true) ∧
    ((presenting [.supplyCfg { cfgT1 with bufCap := 1 }] true).port = [.supplyCfg { cfgT1 with bufCap := 1 }] ∧ ({ cfgT1 with bufCap := 1 } : Cfg).wf = false) ∧
    ((presenting [.supplyCfg cfgT2] false).port = [.supplyCfg cfgT2] ∧ (presenting [.supplyCfg cfgT2] false).resetHeld = false) :=
  ⟨next_after (by decide), by decide, by decide, by decide, by decide⟩

/-- Reset is asserted, T2 supplied and reset released: so a block comes to run under another configuration. -/
theorem test_cfg_supplied_in_reset :
    (after (core.run 3 (presenting [.resetLine true, .supplyCfg cfgT2, .resetLine false] false)) s0).cfg = cfgT2 ∧
    (after (core.run 3 (presenting [.resetLine true, .supplyCfg cfgT2, .resetLine false] false)) s0).resetHeld = false := by
  decide

theorem witness_NoOperationWritesInputs :
    (∃ t, exec (.sysReset) (s0) = .next t) ∧
    (∃ t, exec (.pipePush 0x0A#8) (s0) = .next t) :=
  ⟨goesOn_of_runs (by decide), goesOn_of_runs (by decide)⟩

theorem witness_RefusedOnlyForStatedReason :
    (exec .sysStatus (State.resetWith { cfgT1 with bufCap := 1 }) = .refused .illFormedConfig) ∧
    (exec (.chkGen []) s0 = .refused (.operand .frameLength)) ∧
    (exec .reservedD s0 = .refused (.reservedOperation 0xD)) ∧
    (exec .reservedE s0 = .refused (.reservedOperation 0xE)) :=
  ⟨rfl, rfl, rfl, rfl⟩

theorem witness_PresentedOperationsRunInOrder :
    ((presenting (([.chkGen (h [1, 2]), .decPush 0x0A#8, .sysStatus] : List Instr).map fun i => .present (encode i)) false).cfg.wf = true) ∧
    ((presenting (([.chkGen (h [1, 2]), .decPush 0x0A#8, .sysStatus] : List Instr).map fun i => .present (encode i)) false).resetHeld = false) ∧
    (∀ i ∈ ([.chkGen (h [1, 2]), .decPush 0x0A#8, .sysStatus] : List Instr), i.wf s0.cfg = true) ∧
    ((presenting (([.chkGen (h [1, 2]), .decPush 0x0A#8, .sysStatus] : List Instr).map fun i => .present (encode i)) false).port = ([.chkGen (h [1, 2]), .decPush 0x0A#8, .sysStatus] : List Instr).map (fun i => .present (encode i)) ++ []) ∧
    (execAll [.chkGen (h [1, 2]), .decPush 0x0A#8, .sysStatus] s0 = .next (after (execAll [.chkGen (h [1, 2]), .decPush 0x0A#8, .sysStatus] s0) s0)) :=
  ⟨by decide, by decide, by decide, rfl, next_after (by decide)⟩

theorem witness_ResetStateIsLegal :
    (cfgT1.wf = true) ∧
    (cfgT2.wf = true) :=
  ⟨by decide, by decide⟩

/-- A legal state with both buffers full, the canonical length pinned at its greatest value, and nothing presented. -/
def sFull : State := at_ cfgT1 .accum (aa 16) (some 6) (aa 263) true

theorem sFull_inv : sFull.Inv := at_inv cfgT1 .accum (aa 16) (some 6) (aa 263) true (by decide) (by decide +kernel) (by decide +kernel) (by decide +kernel) (by decide) (.inl rfl) (by rintro n ⟨⟩; decide)

/-- A legal state in resynchronisation, the canonical length pinned at its least value. -/
def sResync : State := at_ cfgT1 .resync ([]) (some 4) ([]) false

theorem sResync_inv : sResync.Inv := at_inv cfgT1 .resync ([]) (some 4) ([]) false (by decide) (by decide +kernel) (by decide +kernel) (by decide +kernel) (by decide) (.inr rfl) (by rintro n ⟨⟩; decide)

/-- A legal state in the middle of a line and of a message, the terminator presented. -/
def sMid : State := { at_ cfgT1 .accum (aa 16) (none) (h [0x54, 0x58, 0x3A, 0x46, 0x46]) false with port := [.present (.op 0xB [0x0A#8])] }

theorem sMid_inv : sMid.Inv := (at_inv cfgT1 .accum (aa 16) (none) (h [0x54, 0x58, 0x3A, 0x46, 0x46]) false (by decide) (by decide +kernel) (by decide +kernel) (by decide +kernel) (by decide) (.inl rfl) (by decide)).outside _ _ _

/-- The input asserted over full buffers; a step while it is held; a step while it is released. -/
theorem witness_StepKeepsRegistersInReset :
    (({ sFull with port := [.resetLine true] } : State).port = [.resetLine true]) ∧
    ((presenting [.supplyCfg cfgT2] true).heldHasResetValues) ∧
    ((presenting [.supplyCfg cfgT2] true).resetHeld = true) ∧
    (∃ t, step (presenting [.supplyCfg cfgT2] true) = .next t) ∧
    (sFull.heldHasResetValues) ∧
    (∃ t, step sFull = .next t) :=
  ⟨by decide, fun _ => ⟨rfl, rfl, rfl, rfl, rfl, rfl⟩, by decide, goesOn_of_runs (by decide), fun h => absurd h (by decide), ⟨sFull, rfl⟩⟩

theorem witness_StepKeepsLegalState :
    (sMid.Inv) ∧
    (∃ t, step sMid = .next t) :=
  ⟨sMid_inv, goesOn_of_runs (by decide)⟩

theorem witness_LegalStateNeverFaults :
    (sFull.Inv) ∧
    (sResync.Inv) :=
  ⟨sFull_inv, sResync_inv⟩

theorem witness_LegalLengthsFitRegisters :
    (sFull.Inv) ∧
    (sFull.llen = 263 ∧ sFull.rlen = 16 ∧ sFull.csl = 6) :=
  ⟨sFull_inv, by decide +kernel⟩

/-- The full state under a configuration with `SHAPES` entries. -/
def sShapes : State := at_ cfgT1S .accum (aa 16) (some 6) (aa 263) true

theorem sShapes_inv : sShapes.Inv := at_inv cfgT1S .accum (aa 16) (some 6) (aa 263) true (by decide) (by decide +kernel) (by decide +kernel) (by decide +kernel) (by decide) (.inl rfl) (by rintro n ⟨⟩; decide)

/-- Every constructor but the two reserved ones. -/
theorem witness_EveryWellFormedInstructionCompletes :
    (sShapes.Inv) ∧
    (∀ i ∈ ([.sysStatus, .chkGen (h [0x12]), .chkVfy (List.replicate 128 0x5A#8), .chkSeal (h [0x12]), .encRx (List.replicate 128 0x5A#8), .encTx (h [0x12]), .encTok .version, .decLine (aa 263), .decPush 0xFF#8, .fclClass (h [0x12]), .rsmFrame (List.replicate 128 0x5A#8), .pipePush 0x0A#8, .sysNewsession, .sysReset, .lineBlank, .lineRx [], .lineTx (aa 300), .lineTokReady, .lineTokPong, .lineTokPing, .lineTokOther (aa 264), .frameGo go0, .frameShape .shortDiagnostic (h [1, 2]), .frameFrag (frag 1 []), .frameUnrecognized (h [0])] : List Instr), i.wf sShapes.cfg = true ∧ i ≠ .reservedD ∧ i ≠ .reservedE) :=
  ⟨sShapes_inv, by decide +kernel⟩

theorem witness_ChkGenReturnsXorOfCoveredBytes :
    (s0.cfg.wf = true) ∧
    (legalFrame (h [0x12])) ∧
    (legalFrame (List.replicate 128 0x5A#8)) ∧
    (illegalFrame []) ∧
    (illegalFrame (List.replicate 129 0x5A#8)) :=
  ⟨by decide, by decide, by decide +kernel, by decide, by decide +kernel⟩

theorem witness_ChkVfyTestsWholeXor :
    (s0.cfg.wf = true) ∧
    (legalFrame (h [0x12])) ∧
    (legalFrame (List.replicate 128 0x5A#8)) ∧
    (illegalFrame []) ∧
    (illegalFrame (List.replicate 129 0x5A#8)) :=
  ⟨by decide, by decide, by decide +kernel, by decide, by decide +kernel⟩

theorem witness_ChkSealOverwritesLastByte :
    (s0.cfg.wf = true) ∧
    (legalFrame (h [0x12])) ∧
    (legalFrame (List.replicate 128 0x5A#8)) ∧
    (illegalFrame []) ∧
    (illegalFrame (List.replicate 129 0x5A#8)) ∧
    (chkVfy (h [0x00]) = true) :=
  ⟨by decide, by decide, by decide +kernel, by decide, by decide +kernel, by decide⟩

theorem witness_ChecksumLaws :
    (legalFrame (h [0x12])) ∧
    (legalFrame (List.replicate 128 0x5A#8)) ∧
    (legalFrame (h [0x12, 0x34] ++ [0x56#8])) ∧
    ((h [0x12, 0x34]).Perm (h [0x34, 0x12])) ∧
    (legalFrame (h [0x12, 0x34, 0x56, 0x70])) ∧
    (3 < (h [0x12, 0x34, 0x56, 0x70]).length) ∧
    ((chkSeal (h [0x12, 0x34, 0x56, 0x70]))[3]? ≠ some 0x71#8) ∧
    ((0 : Nat) < 2 ∧ 2 + 1 < (h [0x12, 0x34, 0x56, 0x70]).length) ∧
    ((chkSeal (h [0x12, 0x34, 0x56, 0x70]))[0]? = some 0x12#8 ∧ (chkSeal (h [0x12, 0x34, 0x56, 0x70]))[2]? = some 0x56#8) ∧
    (legalFrame ([] ++ [0x00#8])) :=
  ⟨by decide, by decide +kernel, by decide, List.Perm.swap _ _ _, by decide, by decide, by decide, by decide, by decide, by decide⟩

/-- Each range at both ends; leading zeros; too many digits, and none. -/
theorem witness_TextHelpersReadBack :
    (0 < 1000 ∧ 999 < 1000 ∧ 999 ≠ 0) ∧
    (isdec 0x30#8 = true ∧ isdec 0x39#8 = true ∧ isdec 0x2F#8 = false ∧ isdec 0x3A#8 = false) ∧
    (ishex 0x46#8 = true ∧ ishex 0x47#8 = false ∧ ishex 0x66#8 = true ∧ ishex 0x67#8 = false) ∧
    ((0x30 ≤ (0x30#8 : Byte).toNat ∧ (0x30#8 : Byte).toNat ≤ 0x39) ∧ 0x30 ≤ (0x39#8 : Byte).toNat ∧ (0x39#8 : Byte).toNat ≤ 0x39) ∧
    ((0x41 ≤ (0x41#8 : Byte).toNat ∧ (0x41#8 : Byte).toNat ≤ 0x46) ∧ 0x41 ≤ (0x46#8 : Byte).toNat ∧ (0x46#8 : Byte).toNat ≤ 0x46) ∧
    ((0x61 ≤ (0x61#8 : Byte).toNat ∧ (0x61#8 : Byte).toNat ≤ 0x66) ∧ 0x61 ≤ (0x66#8 : Byte).toNat ∧ (0x66#8 : Byte).toNat ≤ 0x66) ∧
    ((0#8 : Byte).toNat ≤ 9 ∧ (9#8 : Byte).toNat ≤ 9 ∧ 10 ≤ (10#8 : Byte).toNat ∧ (15#8 : Byte).toNat ≤ 15) ∧
    (decparse (h [0x30, 0x31, 0x35]) = some 15 ∧ decparse (h [0x30, 0x30, 0x31, 0x35]) = none ∧ decparse [] = none) ∧
    (decimalText (h [0x30, 0x30, 0x31, 0x35]) ∧ decimalValue (h [0x30, 0x30, 0x31, 0x35]) = 15) :=
  ⟨by decide, by decide, by decide, by decide, by decide, by decide, by decide, by decide, by decide⟩

theorem witness_EncRxWritesRxLine :
    (s0.cfg.wf = true) ∧
    (legalFrame (h [0x12])) ∧
    (legalFrame (List.replicate 128 0x5A#8)) ∧
    (illegalFrame []) ∧
    (illegalFrame (List.replicate 129 0x5A#8)) :=
  ⟨by decide, by decide, by decide +kernel, by decide, by decide +kernel⟩

theorem witness_EncTxWritesTxLine :
    (s0.cfg.wf = true) ∧
    (legalFrame (h [0x12])) ∧
    (legalFrame (List.replicate 128 0x5A#8)) ∧
    (illegalFrame []) ∧
    (illegalFrame (List.replicate 129 0x5A#8)) :=
  ⟨by decide, by decide, by decide +kernel, by decide, by decide +kernel⟩

theorem witness_EncTokWritesTokenLine :
    (s0.cfg.wf = true) ∧
    (3#8 < 4#8 ∧ 3#8 < 0xFF#8) :=
  ⟨by decide, by decide⟩

theorem witness_EncodedLinesDecodeBack :
    (legalFrame (h [0x12])) ∧
    (legalFrame (List.replicate 128 0x5A#8)) ∧
    (cfgT1.wf = true ∧ cfgT1T.wf = true) ∧
    (s0.llen = 0 ∧ s0.lovf = false) :=
  ⟨by decide, by decide +kernel, by decide, by decide⟩

theorem witness_TxCommandSealsThenEnvelopes :
    (s0.cfg.wf = true) ∧
    (legalFrame (h [0x12])) ∧
    (legalFrame (List.replicate 128 0x5A#8)) :=
  ⟨by decide, by decide, by decide +kernel⟩

theorem witness_DecLineReadsBlankAndTokens :
    (s0.cfg.wf = true) ∧
    ((aa 263).length ≤ 263 ∧ contentOk (aa 263) ∧ aa 263 ≠ [] ∧ (aa 263).take 3 ≠ pfxRx ∧ (aa 263).take 3 ≠ pfxTx ∧ aa 263 ≠ tokReady ∧ aa 263 ≠ tokPong ∧ aa 263 ≠ tokPing) ∧
    (263 < (aa 264).length) ∧
    ((aa 262 ++ [lineTerm]).length ≤ 263 ∧ lineTerm ∈ aa 262 ++ [lineTerm]) :=
  ⟨by decide, by decide +kernel, by decide +kernel, by decide +kernel⟩

/-- No separator; a bad length; a bad hex field; a length that differs; size 0; sizes 1 and 128. -/
theorem witness_DecLineReadsRxEnvelope :
    ((State.resetWith cfgT1).cfg.wf = true ∧ (aa 260).length ≤ 260 ∧ contentOk (aa 260) ∧ colon ∉ aa 260) ∧
    ((State.resetWith cfgT1).cfg.wf = true ∧ (((h []) ++ [colon] ++ (h [0x30, 0x30]))).length ≤ 260 ∧ contentOk (((h []) ++ [colon] ++ (h [0x30, 0x30]))) ∧ colon ∉ (h []) ∧ decparse (h []) = none) ∧
    ((State.resetWith cfgT1).cfg.wf = true ∧ (((h [0x32]) ++ [colon] ++ (h [0x31, 0x32, 0x33]))).length ≤ 260 ∧ contentOk (((h [0x32]) ++ [colon] ++ (h [0x31, 0x32, 0x33]))) ∧ colon ∉ (h [0x32]) ∧ decparse (h [0x32]) = some 2 ∧ hexdec cfgT1 (h [0x31, 0x32, 0x33]) = .error .oddHex) ∧
    ((State.resetWith cfgT1).cfg.wf = true ∧ (((h [0x33]) ++ [colon] ++ (h [0x30, 0x31, 0x30, 0x32]))).length ≤ 260 ∧ contentOk (((h [0x33]) ++ [colon] ++ (h [0x30, 0x31, 0x30, 0x32]))) ∧ colon ∉ (h [0x33]) ∧ decparse (h [0x33]) = some 3 ∧ hexdec cfgT1 (h [0x30, 0x31, 0x30, 0x32]) = .ok (h [1, 2]) ∧ (h [1, 2]).length ≠ 3) ∧
    ((State.resetWith cfgT1).cfg.wf = true ∧ (((h [0x30]) ++ [colon] ++ (h []))).length ≤ 260 ∧ contentOk (((h [0x30]) ++ [colon] ++ (h []))) ∧ colon ∉ (h [0x30]) ∧ decparse (h [0x30]) = some 0 ∧ hexdec cfgT1 (h []) = .ok [] ∧ 0 < 1) ∧
    ((State.resetWith cfgT1).cfg.wf = true ∧ (((h [0x30, 0x31]) ++ [colon] ++ (h [0x37, 0x66]))).length ≤ 260 ∧ contentOk (((h [0x30, 0x31]) ++ [colon] ++ (h [0x37, 0x66]))) ∧ colon ∉ (h [0x30, 0x31]) ∧ decparse (h [0x30, 0x31]) = some 1 ∧ hexdec cfgT1 (h [0x37, 0x66]) = .ok (h [0x7F])) ∧
    ((State.resetWith cfgT1).cfg.wf = true ∧ (((h [0x31, 0x32, 0x38]) ++ [colon] ++ (List.replicate 256 0x46#8))).length ≤ 260 ∧ contentOk (((h [0x31, 0x32, 0x38]) ++ [colon] ++ (List.replicate 256 0x46#8))) ∧ colon ∉ (h [0x31, 0x32, 0x38]) ∧ decparse (h [0x31, 0x32, 0x38]) = some 128 ∧ hexdec cfgT1 (List.replicate 256 0x46#8) = .ok (List.replicate 128 0xFF#8)) :=
  ⟨by decide +kernel, by decide +kernel, by decide +kernel, by decide +kernel, by decide +kernel, by decide +kernel, by decide +kernel⟩

/-- A bad hex field; sizes 0 and 129; sizes 1 and 128. -/
theorem witness_DecLineReadsTxEnvelope :
    (s0.cfg.wf = true) ∧
    (contentOk (h [0x30]) ∧ (h [0x30]).length ≤ 260 ∧ hexdec s0.cfg (h [0x30]) = .error .oddHex) ∧
    (contentOk (h []) ∧ (h []).length ≤ 260 ∧ hexdec s0.cfg (h []) = .ok []) ∧
    (contentOk (List.replicate 258 0x30#8) ∧ (List.replicate 258 0x30#8).length ≤ 260 ∧ hexdec s0.cfg (List.replicate 258 0x30#8) = .ok (List.replicate 129 0x00#8)) ∧
    (contentOk (h [0x30, 0x30]) ∧ (h [0x30, 0x30]).length ≤ 260 ∧ hexdec s0.cfg (h [0x30, 0x30]) = .ok (h [0])) ∧
    (contentOk (List.replicate 256 0x30#8) ∧ (List.replicate 256 0x30#8).length ≤ 260 ∧ hexdec s0.cfg (List.replicate 256 0x30#8) = .ok (List.replicate 128 0x00#8)) :=
  ⟨by decide, by decide +kernel, by decide +kernel, by decide +kernel, by decide +kernel, by decide +kernel⟩

theorem witness_StrictHexDecodesPairs :
    (cfgT1.hexTolerant = false) ∧
    ((h [0x47]).length % 2 = 1) ∧
    ((h [0x34, 0x47]).length % 2 = 0 ∧ ∃ c, c ∈ h [0x34, 0x47] ∧ ishex c = false) ∧
    ((h [0x34, 0x46]).length % 2 = 0 ∧ ∀ c, c ∈ h [0x34, 0x46] → ishex c = true) ∧
    (([] : Bytes).length % 2 = 0 ∧ ∀ c, c ∈ ([] : Bytes) → ishex c = true) :=
  ⟨by decide, by decide, by decide, by decide, by decide⟩

theorem witness_TolerantHexNeverFails :
    (cfgT1T.hexTolerant = true) ∧
    ((h [0x31, 0x32, 0x33])[2 * 0]? = some 0x31#8 ∧ (h [0x31, 0x32, 0x33])[2 * 0 + 1]? = some 0x32#8) ∧
    ((h [0x31, 0x32, 0x33])[2 * 1]? = some 0x33#8 ∧ (h [0x31, 0x32, 0x33]).length ≤ 2 * 1 + 1) ∧
    ((h [0x34, 0x46]).length % 2 = 0 ∧ ∀ c, c ∈ h [0x34, 0x46] → ishex c = true) :=
  ⟨by decide, by decide, by decide, by decide⟩

theorem witness_DecodedFramesAreLegal :
    (decodeLine cfgT1 (h [0x52, 0x58, 0x3A, 0x31, 0x3A, 0x30, 0x30]) = .rxFrame (h [0])) ∧
    (decodeLine cfgT1 (h [0x54, 0x58, 0x3A, 0x30, 0x30]) = .txFrame (h [0])) :=
  ⟨by decide, by decide⟩

/-- Room for one byte more, and none; an overlong line, a blank one, the two envelopes, a token of 263 bytes, a malformed line. -/
theorem witness_DecPushStoresBytesAndReportsLines :
    (cfgT1.wf = true) ∧
    ((0x41#8 : Byte) ≠ 0x0A#8) ∧
    ((at_ cfgT1 .idle ([]) (none) (aa 262) false).llen < 263) ∧
    (263 ≤ (at_ cfgT1 .idle ([]) (none) (aa 263) false).llen) ∧
    ((at_ cfgT1 .idle ([]) (none) (aa 263) true).Inv) ∧
    (liveBytes (at_ cfgT1 .idle ([]) (none) (aa 263) true).lb (at_ cfgT1 .idle ([]) (none) (aa 263) true).llen (aa 263)) ∧
    ((at_ cfgT1 .idle ([]) (none) (aa 263) true).lovf = true ∧ contentOk (aa 263)) ∧
    ((at_ cfgT1 .idle ([]) (none) (h []) false).Inv) ∧
    (liveBytes (at_ cfgT1 .idle ([]) (none) (h []) false).lb (at_ cfgT1 .idle ([]) (none) (h []) false).llen (h [])) ∧
    ((at_ cfgT1 .idle ([]) (none) (h []) false).lovf = false ∧ decodeLine cfgT1 [] = .blank) ∧
    ((at_ cfgT1 .idle ([]) (none) (h [0x52, 0x58, 0x3A, 0x31, 0x3A, 0x30, 0x30]) false).Inv) ∧
    (liveBytes (at_ cfgT1 .idle ([]) (none) (h [0x52, 0x58, 0x3A, 0x31, 0x3A, 0x30, 0x30]) false).lb (at_ cfgT1 .idle ([]) (none) (h [0x52, 0x58, 0x3A, 0x31, 0x3A, 0x30, 0x30]) false).llen (h [0x52, 0x58, 0x3A, 0x31, 0x3A, 0x30, 0x30])) ∧
    ((at_ cfgT1 .idle ([]) (none) (h [0x52, 0x58, 0x3A, 0x31, 0x3A, 0x30, 0x30]) false).lovf = false ∧ decodeLine cfgT1 (h [0x52, 0x58, 0x3A, 0x31, 0x3A, 0x30, 0x30]) = .rxFrame (h [0])) ∧
    ((at_ cfgT1 .idle ([]) (none) (h [0x54, 0x58, 0x3A, 0x46, 0x46]) false).Inv) ∧
    (liveBytes (at_ cfgT1 .idle ([]) (none) (h [0x54, 0x58, 0x3A, 0x46, 0x46]) false).lb (at_ cfgT1 .idle ([]) (none) (h [0x54, 0x58, 0x3A, 0x46, 0x46]) false).llen (h [0x54, 0x58, 0x3A, 0x46, 0x46])) ∧
    ((at_ cfgT1 .idle ([]) (none) (h [0x54, 0x58, 0x3A, 0x46, 0x46]) false).lovf = false ∧ decodeLine cfgT1 (h [0x54, 0x58, 0x3A, 0x46, 0x46]) = .txFrame (h [0xFF])) ∧
    ((at_ cfgT1 .idle ([]) (none) (aa 263) false).Inv) ∧
    (liveBytes (at_ cfgT1 .idle ([]) (none) (aa 263) false).lb (at_ cfgT1 .idle ([]) (none) (aa 263) false).llen (aa 263)) ∧
    ((at_ cfgT1 .idle ([]) (none) (aa 263) false).lovf = false ∧ decodeLine cfgT1 (aa 263) = .token .other (aa 263)) ∧
    ((at_ cfgT1 .idle ([]) (none) (h [0x54, 0x58, 0x3A]) false).Inv) ∧
    (liveBytes (at_ cfgT1 .idle ([]) (none) (h [0x54, 0x58, 0x3A]) false).lb (at_ cfgT1 .idle ([]) (none) (h [0x54, 0x58, 0x3A]) false).llen (h [0x54, 0x58, 0x3A])) ∧
    ((at_ cfgT1 .idle ([]) (none) (h [0x54, 0x58, 0x3A]) false).lovf = false ∧ decodeLine cfgT1 (h [0x54, 0x58, 0x3A]) = .malformed .badSize) :=
  ⟨by decide, by decide, by decide +kernel, by decide +kernel, at_inv cfgT1 .idle ([]) (none) (aa 263) true (by decide) (by decide +kernel) (by decide +kernel) (by decide +kernel) (by decide) (.inr rfl) (by decide), live_lb _ _ _ _ _ _, by decide +kernel, at_inv cfgT1 .idle ([]) (none) (h []) false (by decide) (by decide +kernel) (by decide +kernel) (by decide +kernel) (by decide) (.inr rfl) (by decide), live_lb _ _ _ _ _ _, by decide +kernel, at_inv cfgT1 .idle ([]) (none) (h [0x52, 0x58, 0x3A, 0x31, 0x3A, 0x30, 0x30]) false (by decide) (by decide +kernel) (by decide +kernel) (by decide +kernel) (by decide) (.inr rfl) (by decide), live_lb _ _ _ _ _ _, by decide +kernel, at_inv cfgT1 .idle ([]) (none) (h [0x54, 0x58, 0x3A, 0x46, 0x46]) false (by decide) (by decide +kernel) (by decide +kernel) (by decide +kernel) (by decide) (.inr rfl) (by decide), live_lb _ _ _ _ _ _, by decide +kernel, at_inv cfgT1 .idle ([]) (none) (aa 263) false (by decide) (by decide +kernel) (by decide +kernel) (by decide +kernel) (by decide) (.inr rfl) (by decide), live_lb _ _ _ _ _ _, by decide +kernel, at_inv cfgT1 .idle ([]) (none) (h [0x54, 0x58, 0x3A]) false (by decide) (by decide +kernel) (by decide +kernel) (by decide +kernel) (by decide) (.inr rfl) (by decide), live_lb _ _ _ _ _ _, by decide +kernel⟩

theorem witness_PushesOfLineAgreeWithDecLine :
    (s0.cfg.wf = true ∧ s0.llen = 0 ∧ s0.lovf = false) ∧
    (([] : Bytes).length ≤ 263 ∧ contentOk []) ∧
    ((aa 263).length ≤ 263 ∧ contentOk (aa 263)) :=
  ⟨by decide, by decide, by decide +kernel⟩

theorem witness_OverlongLineIsDroppedWhole :
    (s0.cfg.wf = true ∧ s0.llen = 0 ∧ s0.lovf = false) ∧
    (263 < (aa 264).length ∧ contentOk (aa 264)) :=
  ⟨by decide, by decide +kernel⟩

/-- The seven rows; contents of 264 (LINE_RX and LINE_TOK_OTHER) and of 263 bytes; a legal state in mid-line, and one with a full and overlong line. -/
theorem witness_LineRowsReportTheirLine :
    (s0.cfg.wf = true ∧ s0.llen = 0 ∧ s0.lovf = false) ∧
    (sMid.Inv) ∧
    (sFull.Inv) ∧
    ((.lineTx (h [0x30]) : Instr).wf sMid.cfg = true ∧ encode (.lineTx (h [0x30])) = .line (pfxTx ++ h [0x30])) ∧
    ((.lineBlank : Instr).wf s0.cfg = true ∧ encode (.lineBlank) = .line ([])) ∧
    ((.lineRx (aa 261) : Instr).wf s0.cfg = true ∧ encode (.lineRx (aa 261)) = .line (pfxRx ++ aa 261)) ∧
    ((.lineTx (aa 260) : Instr).wf s0.cfg = true ∧ encode (.lineTx (aa 260)) = .line (pfxTx ++ aa 260)) ∧
    ((.lineTokReady : Instr).wf s0.cfg = true ∧ encode (.lineTokReady) = .line (tokReady)) ∧
    ((.lineTokPong : Instr).wf s0.cfg = true ∧ encode (.lineTokPong) = .line (tokPong)) ∧
    ((.lineTokPing : Instr).wf s0.cfg = true ∧ encode (.lineTokPing) = .line (tokPing)) ∧
    ((.lineTokOther (aa 263) : Instr).wf s0.cfg = true ∧ encode (.lineTokOther (aa 263)) = .line (aa 263)) ∧
    ((.lineTokOther (aa 264) : Instr).wf s0.cfg = true ∧ encode (.lineTokOther (aa 264)) = .line (aa 264)) :=
  ⟨by decide, sMid_inv, sFull_inv, by decide, by decide +kernel, by decide +kernel, by decide +kernel, by decide +kernel, by decide +kernel, by decide +kernel, by decide +kernel, by decide +kernel⟩

/-- The keep-alive; the second entry of a table whose first does not match; a marked fragment of exactly the header size; the wrong marker; a byte too short. -/
theorem witness_FclClassTestsInOrder :
    ((State.resetWith cfgT1S).cfg.wf = true ∧ legalFrame go0 ∧ illegalFrame []) ∧
    (((go0).length = 15 ∧ (go0)[13]? = some 0x47#8 ∧ (go0)[14]? = some 0x4F#8)) ∧
    (¬((h [0, 1, 2, 3, 4, 5, 6, 7, 8]).length = 15 ∧ (h [0, 1, 2, 3, 4, 5, 6, 7, 8])[13]? = some 0x47#8 ∧ (h [0, 1, 2, 3, 4, 5, 6, 7, 8])[14]? = some 0x4F#8)) ∧
    (cfgT1S.shapes = [⟨.clockSync, 9, [(0, 0x4B#8)]⟩] ++ ⟨.handshakeComplete, 9, []⟩ :: [⟨.programStatus18, 18, [(2, 0xA5#8), (17, 0x00#8)]⟩, ⟨.shortDiagnostic, 2, []⟩]) ∧
    (∀ x, x ∈ ([⟨.clockSync, 9, [(0, 0x4B#8)]⟩] : List Shape) → ¬((h [0, 1, 2, 3, 4, 5, 6, 7, 8]).length = x.len ∧ ∀ m, m ∈ x.marks → (h [0, 1, 2, 3, 4, 5, 6, 7, 8])[m.1]? = some m.2)) ∧
    (((h [0, 1, 2, 3, 4, 5, 6, 7, 8]).length = (⟨.handshakeComplete, 9, []⟩ : Shape).len ∧ ∀ m, m ∈ (⟨.handshakeComplete, 9, []⟩ : Shape).marks → (h [0, 1, 2, 3, 4, 5, 6, 7, 8])[m.1]? = some m.2)) ∧
    (¬((h [0xAA, 0x55, 0xA5, 0, 0, 0]).length = 15 ∧ (h [0xAA, 0x55, 0xA5, 0, 0, 0])[13]? = some 0x47#8 ∧ (h [0xAA, 0x55, 0xA5, 0, 0, 0])[14]? = some 0x4F#8)) ∧
    (∀ x, x ∈ cfgT1M.shapes → ¬((h [0xAA, 0x55, 0xA5, 0, 0, 0]).length = x.len ∧ ∀ m, m ∈ x.marks → (h [0xAA, 0x55, 0xA5, 0, 0, 0])[m.1]? = some m.2)) ∧
    (((cfgT1M).hdrSize ≤ (h [0xAA, 0x55, 0xA5, 0, 0, 0]).length ∧ (h [0xAA, 0x55, 0xA5, 0, 0, 0])[(cfgT1M).typeOff]? = some (cfgT1M).typeVal ∧ (∀ k, (cfgT1M).markCheck = some k → (h [0xAA, 0x55, 0xA5, 0, 0, 0])[k.off]? = some k.b0 ∧ (h [0xAA, 0x55, 0xA5, 0, 0, 0])[k.off + 1]? = some k.b1))) ∧
    (¬((cfgT1M).hdrSize ≤ (frag 1 []).length ∧ (frag 1 [])[(cfgT1M).typeOff]? = some (cfgT1M).typeVal ∧ (∀ k, (cfgT1M).markCheck = some k → (frag 1 [])[k.off]? = some k.b0 ∧ (frag 1 [])[k.off + 1]? = some k.b1))) ∧
    (¬(cfgT1.hdrSize ≤ (h [0, 0, 0xA5, 1, 0]).length)) :=
  ⟨by decide, by decide, by decide, by decide, by decide, by decide, by decide, by decide, by refine ⟨by decide, by decide, ?_⟩; rintro k ⟨⟩; decide, by rintro ⟨-, -, h⟩; exact absurd (h _ rfl) (by decide), by decide⟩

theorem witness_NonFragmentLeavesReassembler :
    (cfgT1S.wf = true) ∧
    (legalFrame go0 ∧ passesCheck cfgT1S go0 ∧ classify cfgT1S go0 = .goKeepalive) ∧
    (legalFrame (h [1, 2]) ∧ passesCheck cfgT1S (h [1, 2]) ∧ classify cfgT1S (h [1, 2]) = .shape .shortDiagnostic) ∧
    (legalFrame (h [1, 2, 3]) ∧ passesCheck cfgT1S (h [1, 2, 3]) ∧ classify cfgT1S (h [1, 2, 3]) = .unrecognized) ∧
    (legalFrame (h [1, 2, 3, 0]) ∧ passesCheck cfgT1V (h [1, 2, 3, 0]) ∧ classify cfgT1V (h [1, 2, 3, 0]) = .unrecognized) :=
  ⟨by decide, by decide, by decide, by decide, by decide⟩

theorem witness_FailedCheckDropsFrame :
    (cfgT1V.wf = true ∧ cfgT1V.rxVerify = true ∧ legalFrame (h [1]) ∧ chkVfy (h [1]) = false) ∧
    (cfgT1.rxVerify = false) ∧
    (∃ t, exec (.rsmFrame (h [1])) (s0) = .next t) ∧
    (illegalFrame []) :=
  ⟨by decide, by decide, goesOn_of_runs (by decide), by decide⟩

/-- The six rows: exactly full, one byte too many, and resynchronising; an empty payload too. -/
theorem witness_FragmentTransitionTable :
    ((at_ cfgT1 .accum (aa 14) (none) ([]) false).Inv) ∧
    (legalFrame (frag 1 [7, 8]) ∧ passesCheck cfgT1 (frag 1 [7, 8]) ∧ classify cfgT1 (frag 1 [7, 8]) = .fragment ∧ h [7, 8] = (frag 1 [7, 8]).drop cfgT1.hdrSize) ∧
    ((at_ cfgT1 .accum (aa 14) (none) ([]) false).rst ≠ .resync ∧ moreFlag cfgT1 (frag 1 [7, 8]) = true) ∧
    ((at_ cfgT1 .accum (aa 14) (none) ([]) false).rlen + (h [7, 8]).length = 16) ∧
    ((at_ cfgT1 .idle ([]) (none) ([]) false).Inv) ∧
    (legalFrame (frag 1 []) ∧ passesCheck cfgT1 (frag 1 []) ∧ classify cfgT1 (frag 1 []) = .fragment ∧ h [] = (frag 1 []).drop cfgT1.hdrSize) ∧
    ((at_ cfgT1 .idle ([]) (none) ([]) false).rst ≠ .resync ∧ moreFlag cfgT1 (frag 1 []) = true) ∧
    ((at_ cfgT1 .idle ([]) (none) ([]) false).rlen + (h []).length ≤ 16) ∧
    ((at_ cfgT1 .accum (aa 14) (none) ([]) false).Inv) ∧
    (legalFrame (frag 0 [7, 8]) ∧ passesCheck cfgT1 (frag 0 [7, 8]) ∧ classify cfgT1 (frag 0 [7, 8]) = .fragment ∧ h [7, 8] = (frag 0 [7, 8]).drop cfgT1.hdrSize) ∧
    ((at_ cfgT1 .accum (aa 14) (none) ([]) false).rst ≠ .resync ∧ moreFlag cfgT1 (frag 0 [7, 8]) = false) ∧
    ((at_ cfgT1 .accum (aa 14) (none) ([]) false).rlen + (h [7, 8]).length = 16) ∧
    (liveBytes (at_ cfgT1 .accum (aa 14) (none) ([]) false).rb (at_ cfgT1 .accum (aa 14) (none) ([]) false).rlen (aa 14)) ∧
    ((at_ cfgT1 .accum (aa 15) (none) ([]) false).Inv) ∧
    (legalFrame (frag 1 [7, 8]) ∧ passesCheck cfgT1 (frag 1 [7, 8]) ∧ classify cfgT1 (frag 1 [7, 8]) = .fragment ∧ h [7, 8] = (frag 1 [7, 8]).drop cfgT1.hdrSize) ∧
    ((at_ cfgT1 .accum (aa 15) (none) ([]) false).rst ≠ .resync ∧ moreFlag cfgT1 (frag 1 [7, 8]) = true) ∧
    ((at_ cfgT1 .accum (aa 15) (none) ([]) false).rlen + (h [7, 8]).length > 16) ∧
    ((at_ cfgT1 .accum (aa 15) (none) ([]) false).Inv) ∧
    (legalFrame (frag 0 [7, 8]) ∧ passesCheck cfgT1 (frag 0 [7, 8]) ∧ classify cfgT1 (frag 0 [7, 8]) = .fragment ∧ h [7, 8] = (frag 0 [7, 8]).drop cfgT1.hdrSize) ∧
    ((at_ cfgT1 .accum (aa 15) (none) ([]) false).rst ≠ .resync ∧ moreFlag cfgT1 (frag 0 [7, 8]) = false) ∧
    ((at_ cfgT1 .accum (aa 15) (none) ([]) false).rlen + (h [7, 8]).length > 16) ∧
    ((at_ cfgT1 .resync ([]) (none) ([]) false).Inv) ∧
    (legalFrame (frag 1 [7]) ∧ passesCheck cfgT1 (frag 1 [7]) ∧ classify cfgT1 (frag 1 [7]) = .fragment ∧ h [7] = (frag 1 [7]).drop cfgT1.hdrSize) ∧
    ((at_ cfgT1 .resync ([]) (none) ([]) false).rst = .resync ∧ moreFlag cfgT1 (frag 1 [7]) = true) ∧
    ((at_ cfgT1 .resync ([]) (none) ([]) false).Inv) ∧
    (legalFrame (frag 0 [7]) ∧ passesCheck cfgT1 (frag 0 [7]) ∧ classify cfgT1 (frag 0 [7]) = .fragment ∧ h [7] = (frag 0 [7]).drop cfgT1.hdrSize) ∧
    ((at_ cfgT1 .resync ([]) (none) ([]) false).rst = .resync ∧ moreFlag cfgT1 (frag 0 [7]) = false) :=
  ⟨at_inv cfgT1 .accum (aa 14) (none) ([]) false (by decide) (by decide +kernel) (by decide +kernel) (by decide +kernel) (by decide) (.inl rfl) (by decide), by decide, by decide, by decide, at_inv cfgT1 .idle ([]) (none) ([]) false (by decide) (by decide +kernel) (by decide +kernel) (by decide +kernel) (by decide) (.inr rfl) (by decide), by decide, by decide, by decide, at_inv cfgT1 .accum (aa 14) (none) ([]) false (by decide) (by decide +kernel) (by decide +kernel) (by decide +kernel) (by decide) (.inl rfl) (by decide), by decide, by decide, by decide, live_rb _ _ _ _ _ _, at_inv cfgT1 .accum (aa 15) (none) ([]) false (by decide) (by decide +kernel) (by decide +kernel) (by decide +kernel) (by decide) (.inl rfl) (by decide), by decide, by decide, by decide, at_inv cfgT1 .accum (aa 15) (none) ([]) false (by decide) (by decide +kernel) (by decide +kernel) (by decide +kernel) (by decide) (.inl rfl) (by decide), by decide, by decide, by decide, at_inv cfgT1 .resync ([]) (none) ([]) false (by decide) (by decide +kernel) (by decide +kernel) (by decide +kernel) (by decide) (.inr rfl) (by decide), by decide, by decide, at_inv cfgT1 .resync ([]) (none) ([]) false (by decide) (by decide +kernel) (by decide +kernel) (by decide +kernel) (by decide) (.inr rfl) (by decide), by decide, by decide⟩

theorem witness_ContinuationFlagReadsSet :
    cfgT1.wf = true ∧ legalFrame (frag 1 []) ∧ classify cfgT1 (frag 1 []) = .fragment ∧ classify cfgT1 (frag 255 []) = .fragment := by decide

/-- The detector at both ends of its bracket, above it and on the empty payload; status-only; combined at both ends of the bracket; the wrong mark; the wrong split markers. -/
theorem witness_CompletedPayloadIsClassified :
    (s0.cslValid = false ∧ s0.cfg.detMin ≤ (0x53#8 :: aa 3).length ∧ (0x53#8 :: aa 3).length ≤ s0.cfg.detMax ∧ (0x53#8 :: aa 3)[0]? = some s0.cfg.statusMark) ∧
    (s0.cfg.detMin ≤ (0x53#8 :: aa 5).length ∧ (0x53#8 :: aa 5).length ≤ s0.cfg.detMax ∧ (0x53#8 :: aa 5)[0]? = some s0.cfg.statusMark) ∧
    (¬(s0.cfg.detMin ≤ (0x53#8 :: aa 6).length ∧ (0x53#8 :: aa 6).length ≤ s0.cfg.detMax ∧ (0x53#8 :: aa 6)[0]? = some s0.cfg.statusMark)) ∧
    (¬(s0.cfg.detMin ≤ ([] : Bytes).length ∧ ([] : Bytes).length ≤ s0.cfg.detMax ∧ ([] : Bytes)[0]? = some s0.cfg.statusMark)) ∧
    ((at_ cfgT1 .idle ([]) (some 4) ([]) false).cslValid = true ∧ (0x53#8 :: aa 3).length = (at_ cfgT1 .idle ([]) (some 4) ([]) false).csl ∧ (0x53#8 :: aa 3)[0]? = some (at_ cfgT1 .idle ([]) (some 4) ([]) false).cfg.statusMark) ∧
    ((at_ cfgT1 .idle ([]) (some 4) ([]) false).cslValid = true ∧ aa 4 ≠ [] ∧ (h [0xC5, 0x5C, 3, 4]).length = (at_ cfgT1 .idle ([]) (some 4) ([]) false).csl ∧ (at_ cfgT1 .idle ([]) (some 4) ([]) false).cfg.combMin = (aa 4 ++ h [0xC5, 0x5C, 3, 4]).length ∧ (aa 4 ++ h [0xC5, 0x5C, 3, 4]).length ≤ (at_ cfgT1 .idle ([]) (some 4) ([]) false).cfg.combMax ∧ (h [0xC5, 0x5C, 3, 4])[0]? = some (at_ cfgT1 .idle ([]) (some 4) ([]) false).cfg.splitM0 ∧ (h [0xC5, 0x5C, 3, 4])[1]? = some (at_ cfgT1 .idle ([]) (some 4) ([]) false).cfg.splitM1) ∧
    (aa 8 ≠ [] ∧ (at_ cfgT1 .idle ([]) (some 4) ([]) false).cfg.combMin ≤ (aa 8 ++ h [0xC5, 0x5C, 3, 4]).length ∧ (aa 8 ++ h [0xC5, 0x5C, 3, 4]).length = (at_ cfgT1 .idle ([]) (some 4) ([]) false).cfg.combMax) ∧
    ((at_ cfgT1 .idle ([]) (some 4) ([]) false).cslValid = true ∧ ¬((aa 4).length = (at_ cfgT1 .idle ([]) (some 4) ([]) false).csl ∧ (aa 4)[0]? = some (at_ cfgT1 .idle ([]) (some 4) ([]) false).cfg.statusMark) ∧ ¬((at_ cfgT1 .idle ([]) (some 4) ([]) false).cfg.combMin ≤ (aa 4).length ∧ (aa 4).length ≤ (at_ cfgT1 .idle ([]) (some 4) ([]) false).cfg.combMax ∧ (at_ cfgT1 .idle ([]) (some 4) ([]) false).csl < (aa 4).length ∧ (aa 4)[(aa 4).length - (at_ cfgT1 .idle ([]) (some 4) ([]) false).csl]? = some (at_ cfgT1 .idle ([]) (some 4) ([]) false).cfg.splitM0 ∧ (aa 4)[(aa 4).length - (at_ cfgT1 .idle ([]) (some 4) ([]) false).csl + 1]? = some (at_ cfgT1 .idle ([]) (some 4) ([]) false).cfg.splitM1)) ∧
    (¬((at_ cfgT1 .idle ([]) (some 4) ([]) false).cfg.combMin ≤ (aa 8).length ∧ (aa 8).length ≤ (at_ cfgT1 .idle ([]) (some 4) ([]) false).cfg.combMax ∧ (at_ cfgT1 .idle ([]) (some 4) ([]) false).csl < (aa 8).length ∧ (aa 8)[(aa 8).length - (at_ cfgT1 .idle ([]) (some 4) ([]) false).csl]? = some (at_ cfgT1 .idle ([]) (some 4) ([]) false).cfg.splitM0 ∧ (aa 8)[(aa 8).length - (at_ cfgT1 .idle ([]) (some 4) ([]) false).csl + 1]? = some (at_ cfgT1 .idle ([]) (some 4) ([]) false).cfg.splitM1)) :=
  ⟨by decide, by decide, by decide, by decide, by decide, by decide, by decide, by decide, by decide⟩

/-- Fragments, one of them empty, with other frames between them; the payload fills the buffer exactly. -/
theorem witness_FragmentsReassembleInOrder :
    (s0.Inv) ∧
    (s0.rst = .idle) ∧
    (∀ f, f ∈ ([frag 1 [1, 2, 3, 4, 5, 6, 7], go0, frag 1 [], h [1, 2, 3]] : List Frame) → legalFrame f ∧ passesCheck s0.cfg f ∧ (classify s0.cfg f = .fragment → moreFlag s0.cfg f = true)) ∧
    (legalFrame (frag 0 [8, 9, 10, 11, 12, 13, 14, 15, 16]) ∧ passesCheck s0.cfg (frag 0 [8, 9, 10, 11, 12, 13, 14, 15, 16]) ∧ classify s0.cfg (frag 0 [8, 9, 10, 11, 12, 13, 14, 15, 16]) = .fragment ∧ moreFlag s0.cfg (frag 0 [8, 9, 10, 11, 12, 13, 14, 15, 16]) = false) ∧
    ((((([frag 1 [1, 2, 3, 4, 5, 6, 7], go0, frag 1 [], h [1, 2, 3]] : List Frame).filter fun f => classify s0.cfg f = .fragment) ++ [frag 0 [8, 9, 10, 11, 12, 13, 14, 15, 16]]).flatMap (payload s0.cfg)).length = s0.cfg.bufCap) :=
  ⟨at_inv cfgT1 .idle [] none [] false (by decide) (by decide) (by decide) (by decide) (by decide) (.inr rfl) (by decide), by decide, by decide, by decide, by decide⟩

theorem witness_CanonicalLengthStaysPinned :
    (.sysNewsession ∉ ([.rsmFrame (frag 0 [0x53, 1, 2, 3, 4]), .chkGen (h [1]), .rsmFrame go0] : List Instr) ∧ .sysReset ∉ ([.rsmFrame (frag 0 [0x53, 1, 2, 3, 4]), .chkGen (h [1]), .rsmFrame go0] : List Instr)) ∧
    (execAll [.rsmFrame (frag 0 [0x53, 1, 2, 3, 4]), .chkGen (h [1]), .rsmFrame go0] (at_ cfgT1 .idle ([]) (some 4) ([]) false) = .next (after (execAll [.rsmFrame (frag 0 [0x53, 1, 2, 3, 4]), .chkGen (h [1]), .rsmFrame go0] (at_ cfgT1 .idle ([]) (some 4) ([]) false)) s0)) ∧
    ((at_ cfgT1 .idle ([]) (some 4) ([]) false).cslValid = true) :=
  ⟨by decide, next_after (by decide), by decide⟩

theorem witness_TwoEventsArePinThenStatus :
    (exec (.rsmFrame (frag 0 [0x53, 1, 2, 3])) (s0) = .next (after (exec (.rsmFrame (frag 0 [0x53, 1, 2, 3])) (s0)) s0)) ∧
    ((after (exec (.rsmFrame (frag 0 [0x53, 1, 2, 3])) (s0)) s0).delivered = (s0).delivered ++ [⟨none, [.canonicalLengthPinned 4, .statusOnly (h [0x53, 1, 2, 3])]⟩]) :=
  ⟨next_after (by decide), by decide⟩

theorem witness_AtMostOneErrorPerOperation :
    (exec (.rsmFrame (frag 0 [])) (s0) = .next (after (exec (.rsmFrame (frag 0 [])) (s0)) s0)) ∧
    ((after (exec (.rsmFrame (frag 0 [])) (s0)) s0).delivered = (s0).delivered ++ [⟨none, [.unrecognizedMessageShape []]⟩]) :=
  ⟨next_after (by decide), by decide⟩

theorem witness_FrameRowsActAsRsmFrame :
    (sShapes.Inv) ∧
    ((.frameGo go0 : Instr).wf sShapes.cfg = true ∧ encode (.frameGo go0) = .frame (go0)) ∧
    ((.frameShape .shortDiagnostic (h [1, 2]) : Instr).wf sShapes.cfg = true ∧ encode (.frameShape .shortDiagnostic (h [1, 2])) = .frame (h [1, 2])) ∧
    ((.frameFrag (frag 1 []) : Instr).wf sShapes.cfg = true ∧ encode (.frameFrag (frag 1 [])) = .frame (frag 1 [])) ∧
    ((.frameUnrecognized (h [1, 2, 3]) : Instr).wf sShapes.cfg = true ∧ encode (.frameUnrecognized (h [1, 2, 3])) = .frame (h [1, 2, 3])) :=
  ⟨sShapes_inv, by decide, by decide, by decide, by decide⟩

/-- A line that yields a received frame, and one that yields nothing. -/
theorem witness_PipePushFeedsReassembler :
    ((at_ cfgT1 .idle ([]) (none) (h [0x52, 0x58, 0x3A, 0x31, 0x3A, 0x30, 0x30]) false).Inv) ∧
    (∃ u : State, exec (.decPush 0x0A#8) (at_ cfgT1 .idle ([]) (none) (h [0x52, 0x58, 0x3A, 0x31, 0x3A, 0x30, 0x30]) false) = .next (u.deliver none [.envRx (h [0])])) ∧
    (s0.Inv) ∧
    (exec (.decPush 0x0A#8) s0 = .next (s0.deliver none [])) :=
  ⟨at_inv cfgT1 .idle ([]) (none) (h [0x52, 0x58, 0x3A, 0x31, 0x3A, 0x30, 0x30]) false (by decide) (by decide +kernel) (by decide +kernel) (by decide +kernel) (by decide) (.inr rfl) (by decide), ⟨{ at_ cfgT1 .idle ([]) (none) (h [0x52, 0x58, 0x3A, 0x31, 0x3A, 0x30, 0x30]) false with llen := 0 }, rfl⟩, at_inv cfgT1 .idle [] none [] false (by decide) (by decide) (by decide) (by decide) (by decide) (.inr rfl) (by decide), rfl⟩

theorem witness_NewSessionForgetsMessageAndLength :
    (sFull.Inv) ∧
    (sFull.cfg.wf = true) :=
  ⟨sFull_inv, by decide⟩

theorem witness_ResetClearsAllRegisters :
    (sFull.cfg.wf = true) ∧
    ((presenting [.resetLine true] false).port = [.resetLine true]) :=
  ⟨by decide, by decide⟩

theorem witness_StatusReturnsRegisters :
    sFull.cfg.wf = true := by decide

theorem witness_EachUnitWritesItsOwnState :
    (∃ t, exec (.sysReset) (sFull) = .next t) ∧
    (∃ t, exec (.sysNewsession) (sFull) = .next t) ∧
    (∃ t, exec (.rsmFrame go0) (sFull) = .next t) ∧
    (∃ t, exec (.decPush 0x41#8) (sFull) = .next t) :=
  ⟨goesOn_of_runs (by decide +kernel), goesOn_of_runs (by decide +kernel), goesOn_of_runs (by decide +kernel), goesOn_of_runs (by decide +kernel)⟩

theorem witness_FlagsChangeOnlyAsRuled :
    (exec (.decPush 0x41#8) (at_ cfgT1 .idle ([]) (none) (aa 263) false) = .next (after (exec (.decPush 0x41#8) (at_ cfgT1 .idle ([]) (none) (aa 263) false)) s0)) ∧
    ((at_ cfgT1 .idle ([]) (none) (aa 263) false).lovf = false ∧ (after (exec (.decPush 0x41#8) (at_ cfgT1 .idle ([]) (none) (aa 263) false)) s0).lovf = true) ∧
    (exec (.decPush 0x0A#8) (at_ cfgT1 .idle ([]) (none) ([]) true) = .next (after (exec (.decPush 0x0A#8) (at_ cfgT1 .idle ([]) (none) ([]) true)) s0)) ∧
    ((at_ cfgT1 .idle ([]) (none) ([]) true).lovf = true ∧ (after (exec (.decPush 0x0A#8) (at_ cfgT1 .idle ([]) (none) ([]) true)) s0).lovf = false) ∧
    (exec (.rsmFrame (frag 0 [0x53, 1, 2, 3])) s0 = .next (after (exec (.rsmFrame (frag 0 [0x53, 1, 2, 3])) s0) s0)) ∧
    (s0.cslValid = false ∧ (after (exec (.rsmFrame (frag 0 [0x53, 1, 2, 3])) s0) s0).cslValid = true) ∧
    (exec .sysNewsession sFull = .next (after (exec .sysNewsession sFull) s0)) ∧
    (sFull.cslValid = true ∧ (after (exec .sysNewsession sFull) s0).cslValid = false) :=
  ⟨next_after (by decide +kernel), by decide +kernel, next_after (by decide), by decide, next_after (by decide), by decide, next_after (by decide), by decide +kernel⟩

end Sys2Proof.Tests
end

/-! SUPPORT. Every instruction is one acceptance and, behind it, one performance: what the performance can answer settles
when an instruction is refused (O10) and that it completes in a legal state (O17). -/

namespace Sys2Proof.Machine

/-- What an instruction does once it is accepted (R13 (a)): it returns a value, or its statements run. The two reserved
codes alone answer a refusal (R88). -/
def performed (i : Instr) (s : State) : Host.Outcome State Fault Refusal :=
  match i with
  | .sysStatus => returns s (.status (statusOf s))
  | .chkGen f => returns s (.byte (chkGen f))
  | .chkVfy f => returns s (.bool (chkVfy f))
  | .chkSeal f => returns s (.frame (chkSeal f))
  | .encRx f => returns s (.line (encRxLine f))
  | .encTx f => returns s (.line (encTxLine f))
  | .encTok k => returns s (.line (encTokLine s.cfg k))
  | .decLine t => returns s (.envelope (decodeLine s.cfg t))
  | .fclClass f => returns s (.cls (classify s.cfg f))
  | .decPush c => finish (pushByte c s)
  | .rsmFrame f => finish (receiveFrame f s)
  | .pipePush c => finish (pipeByte c s)
  | .sysNewsession => finish (emit s.newSession [])
  | .sysReset => finish (emit s.hardReset [])
  | .reservedD => .refused (.reservedOperation 0xD)
  | .reservedE => .refused (.reservedOperation 0xE)
  | .lineBlank => lineArrives [] s
  | .lineRx r => lineArrives (pfxRx ++ r) s
  | .lineTx h => lineArrives (pfxTx ++ h) s
  | .lineTokReady => lineArrives tokReady s
  | .lineTokPong => lineArrives tokPong s
  | .lineTokPing => lineArrives tokPing s
  | .lineTokOther t => lineArrives t s
  | .frameGo f => finish (verified f s (receiveClass .goKeepalive f s))
  | .frameShape k f => finish (verified f s (receiveClass (.shape k) f s))
  | .frameFrag f => finish (verified f s (receiveClass .fragment f s))
  | .frameUnrecognized f => finish (verified f s (receiveClass .unrecognized f s))

/-- The meaning of every instruction: its acceptance on the operand check of its own row, then its performance. -/
theorem exec_eq_accept_performed (i : Instr) (s : State) :
    exec i s = accept s (i.defect s.cfg) (performed i s) := by
  cases i <;> rfl

/-- An accepted instruction is refused only as a reserved code. -/
theorem performed_refused {i : Instr} {s : State} {r : Refusal} (h : performed i s = .refused r) :
    (i = .reservedD ∧ r = .reservedOperation 0xD) ∨ (i = .reservedE ∧ r = .reservedOperation 0xE) := by
  cases i
  case reservedD => cases h; exact .inl ⟨rfl, rfl⟩
  case reservedE => cases h; exact .inr ⟨rfl, rfl⟩
  case sysStatus | chkGen | chkVfy | chkSeal | encRx | encTx | encTok | decLine | fclClass => cases h
  case sysNewsession | sysReset => cases h
  all_goals exact absurd h (finish_ne_refused _ _)

/-- Settles O10: a refusal comes from the acceptance, which names its reason, or from performing a reserved code. -/
theorem refusedOnlyForStatedReason : Obligations.RefusedOnlyForStatedReason := by
  intro i s r h
  rw [exec_eq_accept_performed] at h
  obtain hcfg | hop | ⟨-, hperf⟩ := accept_refused h
  · exact .inl hcfg
  · exact .inr (.inl hop)
  · exact .inr (.inr (performed_refused hperf))

/-- The outcome is a next state that is legal. -/
def completes (o : Host.Outcome State Fault Refusal) : Prop := ∃ t, o = .next t ∧ t.Inv

theorem returns_completes {s : State} (hi : s.Inv) (v : Value) : completes (returns s v) :=
  ⟨_, rfl, hi.deliver _ _⟩

/-- Statements that answer in a legal state make the operation complete. -/
theorem finish_completes {r : Effect} (h : ∃ u ev, r = .ok (u, ev) ∧ u.Inv) : completes (finish r) := by
  obtain ⟨u, ev, rfl, hu⟩ := h
  exact ⟨_, finish_ok u ev, hu.deliver _ _⟩

theorem lineArrives_completes (t : Bytes) {s : State} (hi : s.Inv) : completes (lineArrives t s) :=
  finish_completes (pushBytes_inv _ hi)

/-- A FRAME row whose frame is of the row's class receives it as RSM.FRAME does (R82, R201). -/
theorem verified_receiveClass_of_frameKind {s : State} {k : FrameClass} {f : Frame}
    (h : frameKindDefect s.cfg k f = none) : verified f s (receiveClass k f s) = receiveFrame f s := by
  rw [receiveFrame, (classify_of_frameKind h).2]

theorem frameRow_completes {s : State} (hi : s.Inv) {k : FrameClass} {f : Frame}
    (h : frameKindDefect s.cfg k f = none) : completes (finish (verified f s (receiveClass k f s))) := by
  rw [verified_receiveClass_of_frameKind h]
  exact finish_completes (receiveFrame_inv f hi)

/-- In a legal state the performance of every well-formed instruction but the reserved codes completes. -/
theorem performed_completes {i : Instr} {s : State} (hi : s.Inv) (hdef : i.defect s.cfg = none)
    (hD : i ≠ .reservedD) (hE : i ≠ .reservedE) : completes (performed i s) := by
  cases i
  case reservedD => exact absurd rfl hD
  case reservedE => exact absurd rfl hE
  case sysStatus | chkGen | chkVfy | chkSeal | encRx | encTx | encTok | decLine | fclClass =>
    exact returns_completes hi _
  case decPush c => exact finish_completes (pushByte_inv c hi)
  case rsmFrame f => exact finish_completes (receiveFrame_inv f hi)
  case pipePush c => exact finish_completes (pipeByte_inv c hi)
  case sysNewsession => exact finish_completes ⟨_, _, rfl, hi.newSession⟩
  case sysReset => exact finish_completes ⟨_, _, rfl, hi.hardReset⟩
  case lineBlank | lineRx | lineTx | lineTokReady | lineTokPong | lineTokPing | lineTokOther =>
    exact lineArrives_completes _ hi
  case frameGo | frameShape | frameFrag | frameUnrecognized => exact frameRow_completes hi hdef

/-- Settles O17: a legal state has a well-formed configuration, so a well-formed instruction is accepted, and its
performance completes. -/
theorem everyWellFormedInstructionCompletes : Obligations.EveryWellFormedInstructionCompletes := by
  intro i s hi hwf hD hE
  have hdef : i.defect s.cfg = none := Option.isNone_iff_eq_none.mp hwf
  rw [exec_eq_accept_performed, hdef, accept_of_wf hi.cfgWf]
  exact performed_completes hi hdef hD hE

end Sys2Proof.Machine

/-! SUPPORT. The lengths of a legal state against the widths of their registers (R8, R20). -/

namespace Sys2Proof.Machine

/-- The detector's bracket lies inside the reassembly buffer (R7). -/
theorem detMax_le_bufCap {c : Cfg} (h : c.wf = true) : c.detMax ≤ c.bufCap := by
  simp only [Cfg.wf, Bool.and_eq_true, decide_eq_true_eq] at h
  tauto

/-- A number of bytes of the reassembly buffer fits `W_RLEN` bits (R8). -/
theorem lt_two_pow_wRlen {c : Cfg} {n : Nat} (h : n ≤ c.bufCap) : n < 2 ^ wRlen c :=
  calc n < c.bufCap + 1 := Nat.lt_succ_of_le h
    _ ≤ 2 ^ wRlen c := Nat.le_pow_clog (by omega) _

/-- In a legal state the canonical length is at most the buffer's capacity: pinned it lies in the detector's bracket,
otherwise it is zero (R29, R30). -/
theorem State.Inv.csl_le_bufCap {s : State} (hi : s.Inv) : s.csl ≤ s.cfg.bufCap := by
  cases hv : s.cslValid with
  | false => rw [hi.cslUnset hv]; exact Nat.zero_le _
  | true => exact (hi.cslPinned hv).2.trans (detMax_le_bufCap hi.cfgWf)

/-- Settles O16, from the bounds of the invariant. -/
theorem legalLengthsFitRegisters : Obligations.LegalLengthsFitRegisters := by
  intro s hi
  have hllen : s.llen ≤ 263 := hi.llenLe
  exact ⟨hllen.trans_lt (by decide), lt_two_pow_wRlen hi.rlenLe, lt_two_pow_wRlen hi.csl_le_bufCap⟩

end Sys2Proof.Machine

/-! SUPPORT. The text helpers of R14 by character codes: the values of hex digits, and `dec` and `decparse` against the
value of a string of decimal digits. -/

namespace Sys2Proof.Machine

/-! ## Hex digits -/

theorem hexval_of_decimal {c : Byte} (h1 : 0x30 ≤ c.toNat) (h2 : c.toNat ≤ 0x39) :
    (hexval c).toNat = c.toNat - 0x30 := by
  rw [hexval, if_pos ((isdec_iff c).mpr ⟨h1, h2⟩)]
  bv_omega

theorem hexval_of_upper {c : Byte} (h1 : 0x41 ≤ c.toNat) (h2 : c.toNat ≤ 0x46) :
    (hexval c).toNat = c.toNat - 0x41 + 10 := by
  have hdec : ¬ isdec c = true := by rw [isdec_iff]; omega
  rw [hexval, if_neg hdec, if_pos (by bv_omega)]
  bv_omega

theorem hexval_of_lower {c : Byte} (h1 : 0x61 ≤ c.toNat) (h2 : c.toNat ≤ 0x66) :
    (hexval c).toNat = c.toNat - 0x61 + 10 := by
  have hdec : ¬ isdec c = true := by rw [isdec_iff]; omega
  rw [hexval, if_neg hdec, if_neg (by bv_omega)]
  bv_omega

theorem hexdig_of_le_nine {v : Byte} (h : v.toNat ≤ 9) : (hexdig v).toNat = 0x30 + v.toNat := by
  rw [hexdig, if_pos (by bv_omega)]
  bv_omega

theorem hexdig_of_letter {v : Byte} (h1 : 10 ≤ v.toNat) (h2 : v.toNat ≤ 15) :
    (hexdig v).toNat = 0x41 + v.toNat - 10 := by
  rw [hexdig, if_neg (by bv_omega)]
  bv_omega

/-! ## The value of a decimal text -/

theorem decimalText_iff_isdec (v : Bytes) : decimalText v ↔ ∀ c, c ∈ v → isdec c = true :=
  forall₂_congr fun c _ => (isdec_iff c).symm

/-- The accumulating loop of `decparse` computes the value of R14. -/
theorem foldl_decval (v : Bytes) (acc : Nat) :
    v.foldl (fun acc c => acc * 10 + decval c) acc = acc * 10 ^ v.length + decimalValue v := by
  induction v generalizing acc with
  | nil => simp [decimalValue]
  | cons c cs ih =>
    rw [List.foldl_cons, ih, decimalValue, List.length_cons, decval]
    ring

theorem decimalValue_append_digit (v : Bytes) (c : Byte) :
    decimalValue (v ++ [c]) = decimalValue v * 10 + (c.toNat - 0x30) := by
  induction v with
  | nil => simp [decimalValue]
  | cons d ds ih =>
    rw [List.cons_append, decimalValue, ih, decimalValue, List.length_append, List.length_singleton]
    ring

/-- A string of `k` decimal digits has a value below `10 ^ k`. -/
theorem decimalValue_lt {v : Bytes} (h : decimalText v) : decimalValue v < 10 ^ v.length := by
  induction v with
  | nil => simp [decimalValue]
  | cons c cs ih =>
    have hcs := ih fun d hd => h d (List.mem_cons_of_mem _ hd)
    have hc : c.toNat - 0x30 ≤ 9 := by have := h c List.mem_cons_self; omega
    calc decimalValue (c :: cs) < (c.toNat - 0x30) * 10 ^ cs.length + 10 ^ cs.length := Nat.add_lt_add_left hcs _
      _ = (c.toNat - 0x30 + 1) * 10 ^ cs.length := by ring
      _ ≤ 10 * 10 ^ cs.length := Nat.mul_le_mul_right _ (by omega)
      _ = 10 ^ (c :: cs).length := by rw [List.length_cons, Nat.pow_succ']

/-- Where `decparse` is defined, and its value by the digits' codes (R14, R75). -/
theorem decparse_eq_some_iff_decimalValue (v : Bytes) (n : Nat) : decparse v = some n ↔
    1 ≤ v.length ∧ v.length ≤ 3 ∧ decimalText v ∧ decimalValue v = n := by
  rw [decparse_eq_some, foldl_decval, decimalText_iff_isdec, Nat.zero_mul, Nat.zero_add]

/-! ## The digits of a number -/

theorem digit_toNat {d : Nat} (h : d < 10) : (BitVec.ofNat 8 (0x30 + d)).toNat = 0x30 + d := by
  rw [BitVec.toNat_ofNat]
  exact Nat.mod_eq_of_lt (by omega)

theorem decimalText_digit {d : Nat} (h : d < 10) : decimalText [BitVec.ofNat 8 (0x30 + d)] := by
  intro c hc
  rw [List.mem_singleton.mp hc, digit_toNat h]
  omega

theorem decimalValue_digit {d : Nat} (h : d < 10) : decimalValue [BitVec.ofNat 8 (0x30 + d)] = d := by
  simp [decimalValue, digit_toNat h]

theorem decDigits_ne_nil (fuel n : Nat) : decDigits fuel n ≠ [] := by
  cases fuel with
  | zero => simp [decDigits]
  | succ fuel => rw [decDigits]; split <;> simp

theorem decimalText_decDigits (fuel n : Nat) : decimalText (decDigits fuel n) := by
  induction fuel generalizing n with
  | zero => exact decimalText_digit (Nat.mod_lt _ (by omega))
  | succ fuel ih =>
    rw [decDigits]
    split
    · next hlt => exact decimalText_digit hlt
    · intro c hc
      obtain hc | hc := List.mem_append.mp hc
      · exact ih _ c hc
      · exact decimalText_digit (Nat.mod_lt _ (by omega)) c hc

/-- With fuel for all digits but one, the digits have the number's value. -/
theorem decimalValue_decDigits {fuel n : Nat} (h : n < 10 ^ (fuel + 1)) : decimalValue (decDigits fuel n) = n := by
  induction fuel generalizing n with
  | zero =>
    have hn : n < 10 := by simpa using h
    rw [decDigits, Nat.mod_eq_of_lt hn, decimalValue_digit hn]
  | succ fuel ih =>
    rw [decDigits]
    split
    · next hlt => exact decimalValue_digit hlt
    · have hq : n / 10 < 10 ^ (fuel + 1) := Nat.div_lt_of_lt_mul (by rwa [← Nat.pow_succ'])
      rw [decimalValue_append_digit, ih hq, digit_toNat (Nat.mod_lt _ (by omega))]
      omega

/-- A number below `10 ^ k` is written in at most `k` digits. -/
theorem decDigits_length_le {fuel n k : Nat} (hk : 1 ≤ k) (h : n < 10 ^ k) : (decDigits fuel n).length ≤ k := by
  induction fuel generalizing n k with
  | zero => exact hk
  | succ fuel ih =>
    rw [decDigits]
    split
    · exact hk
    · next hge =>
      obtain ⟨k, rfl⟩ : ∃ j, k = j + 1 := ⟨k - 1, by omega⟩
      have hk1 : 1 ≤ k := by
        rcases k with _ | k
        · exact absurd (by simpa using h) hge
        · omega
      have hq : n / 10 < 10 ^ k := Nat.div_lt_of_lt_mul (by rwa [← Nat.pow_succ'])
      rw [List.length_append, List.length_singleton]
      exact Nat.succ_le_succ (ih hk1 hq)

theorem decimalValue_dec (n : Nat) : decimalValue (dec n) = n :=
  decimalValue_decDigits ((Nat.lt_succ_self n).trans (Nat.lt_pow_self (by omega)))

/-- No string of digits of the same value is shorter than `dec` (R14). -/
theorem dec_length_le {n : Nat} {v : Bytes} (hne : v ≠ []) (ht : decimalText v) (hv : decimalValue v = n) :
    (dec n).length ≤ v.length :=
  decDigits_length_le (List.length_pos_iff.mpr hne) (hv ▸ decimalValue_lt ht)

/-- Settles O22, each clause by the lemma on its helper. -/
theorem textHelpersReadBack : Obligations.TextHelpersReadBack := by
  refine ⟨isdec_iff, fun _ _ => rfl, ishex_iff,
    fun _ => ⟨hexval_of_decimal, hexval_of_upper, hexval_of_lower⟩,
    fun _ => ⟨hexdig_of_le_nine, hexdig_of_letter⟩, fun _ => rfl, ⟨rfl, fun _ _ => rfl⟩,
    decparse_eq_some_iff_decimalValue, fun n => ?_, fun n hn => ?_, fun b => ?_⟩
  · exact ⟨decDigits_ne_nil n n, decimalText_decDigits n n, decimalValue_dec n, fun _ => dec_length_le⟩
  · obtain ⟨hback, hzero, -⟩ := dec_reads_back n hn
    exact ⟨hback, hzero⟩
  · obtain ⟨hhi, hlo, hback⟩ := hex2_reads_back b
    exact ⟨_, _, rfl, hhi, hlo, hback⟩

end Sys2Proof.Machine

/-! SUPPORT. From a legal state everything the environment can present is refused or answered in a legal state: the
exchange with the port, the reset input and the supply of a configuration, each by its own lemma, then the step. -/

namespace Sys2Proof.Machine

/-- A state whose registers hold their values after reset has no live byte, so it is legal as soon as its configuration is
well-formed and its buffers are canonical and inside their bounds (R29, R291). -/
theorem State.resetValues.inv {s : State} (hv : s.resetValues) (hcfg : s.cfg.wf = true)
    (hlb : s.lb.wf = true ∧ s.lb.below lineCap = true) (hrb : s.rb.wf = true ∧ s.rb.below s.cfg.bufCap = true) :
    s.Inv := by
  obtain ⟨hllen, hlovf, hrlen, hrst, hcsl, hvalid⟩ := hv
  exact {
    cfgWf := hcfg, lbWf := hlb.1, rbWf := hrb.1, lbBelow := hlb.2, rbBelow := hrb.2
    llenLe := by simp [hllen]
    lovfFull := by simp [hlovf]
    lbLive := by simp [hllen]
    rlenLe := by simp [hrlen]
    rbLive := by simp [hrlen]
    idleEmpty := fun _ => hrlen
    resyncEmpty := fun _ => hrlen
    cslPinned := by simp [hvalid]
    cslUnset := fun _ => hcsl }

theorem State.resetWith_inv {c : Cfg} (h : c.wf = true) : (State.resetWith c).Inv :=
  State.resetValues.inv ⟨rfl, rfl, rfl, rfl, rfl, rfl⟩ h ⟨rfl, rfl⟩ ⟨rfl, rfl⟩

/-- Settles O13: the registers hold the reset values and the buffers are empty; T1 is well-formed. -/
theorem resetStateIsLegal : Obligations.ResetStateIsLegal :=
  ⟨State.resetWith_inv (by decide), fun _ => State.resetWith_inv⟩

/-- The outcome is a refusal. -/
def refuses (o : Host.Outcome State Fault Refusal) : Prop := ∃ r, o = .refused r

/-- In a legal state an instruction is refused by its acceptance or as a reserved code; otherwise it completes. -/
theorem exec_completes_or_refuses {s : State} (hi : s.Inv) (i : Instr) : completes (exec i s) ∨ refuses (exec i s) := by
  rw [exec_eq_accept_performed]
  cases hdef : i.defect s.cfg with
  | some d => exact .inr ⟨.operand d, by simp [accept, hi.cfgWf]⟩
  | none =>
    rw [accept_of_wf hi.cfgWf]
    by_cases hD : i = .reservedD
    · exact .inr ⟨.reservedOperation 0xD, by rw [hD]; rfl⟩
    by_cases hE : i = .reservedE
    · exact .inr ⟨.reservedOperation 0xE, by rw [hE]; rfl⟩
    exact .inl (performed_completes hi hdef hD hE)

theorem takeTransaction_completes_or_refuses {s : State} (hi : s.Inv) (x : Transaction) :
    completes (takeTransaction x s) ∨ refuses (takeTransaction x s) := by
  unfold takeTransaction
  split
  · exact .inr ⟨_, rfl⟩
  · split
    · exact exec_completes_or_refuses hi _
    · rw [if_pos hi.cfgWf]
      exact .inr ⟨_, rfl⟩

/-- A legal state has a well-formed configuration, so either change of the reset input is taken (R290). -/
theorem takeResetLine_completes {s : State} (hi : s.Inv) (asserted : Bool) : completes (takeResetLine asserted s) := by
  cases asserted with
  | true => exact ⟨_, rfl, hi.hardReset.outside true s.port s.delivered⟩
  | false => exact ⟨_, if_pos hi.cfgWf, hi.outside false s.port s.delivered⟩

/-- The line buffer keeps its bytes under a new configuration, the reassembly buffer starts empty under the new capacity
(R292, log 10). -/
theorem takeCfg_completes_or_refuses {s : State} (hi : s.Inv) (c : Cfg) :
    completes (takeCfg c s) ∨ refuses (takeCfg c s) := by
  unfold takeCfg
  split
  · split
    · next hwf =>
      exact .inl ⟨_, rfl, State.resetValues.inv s.hardReset_resetValues hwf ⟨hi.lbWf, hi.lbBelow⟩ ⟨rfl, rfl⟩⟩
    · exact .inr ⟨_, rfl⟩
  · exact .inr ⟨_, rfl⟩

/-- The step of a legal state is refused or answers a legal state. -/
theorem step_completes_or_refuses {s : State} (hi : s.Inv) : completes (step s) ∨ refuses (step s) := by
  unfold step
  split
  · exact .inl ⟨s, rfl, hi⟩
  · next x rest _ =>
    have hrest : ({ s with port := rest } : State).Inv := hi.outside s.resetHeld rest s.delivered
    cases x with
    | present x => exact takeTransaction_completes_or_refuses hrest x
    | resetLine b => exact .inl (takeResetLine_completes hrest b)
    | supplyCfg c => exact takeCfg_completes_or_refuses hrest c

/-- Settles O14: the only next state of a step is the legal one it completes in. -/
theorem stepKeepsLegalState : Obligations.StepKeepsLegalState := by
  intro s t hi hstep
  obtain ⟨u, hu, hinv⟩ | ⟨r, hr⟩ := step_completes_or_refuses hi
  · rw [hstep] at hu
    cases hu
    exact hinv
  · rw [hstep] at hr
    cases hr

/-- Settles O15: a step that completes or is refused is no fault. -/
theorem legalStateNeverFaults : Obligations.LegalStateNeverFaults := by
  intro s hi x hfault
  obtain ⟨u, hu, -⟩ | ⟨r, hr⟩ := step_completes_or_refuses hi
  · rw [hfault] at hu
    cases hu
  · rw [hfault] at hr
    cases hr

end Sys2Proof.Machine

/-! SUPPORT. Everything an instruction that goes on can have done, said once; from it what each unit writes (R32, R36) and
what sets and clears the two flags (R24, R31). -/

namespace Sys2Proof.Machine

/-! ## What an instruction that goes on has done -/

/-- The writes and the events of every instruction that goes on: from `s` the instruction leaves `u`, apart from the delivery,
and emits `ev`. The FRAME rows other than FRAME_FRAG receive their frame too, and keep the state. -/
inductive Performs (s : State) : Instr → State → List Event → Prop where
  | value {i : Instr} {v : Value} (h : performed i s = returns s v) : Performs s i s []
  | push {c : Byte} {u : State} {ev : List Event} (h : pushByte c s = .ok (u, ev)) : Performs s (.decPush c) u ev
  | pipe {c : Byte} {u : State} {ev : List Event} (h : pipeByte c s = .ok (u, ev)) : Performs s (.pipePush c) u ev
  | line {i : Instr} {l : Bytes} {u : State} {ev : List Event} (hl : encode i = .line l)
      (h : pushBytes (l ++ [lineTerm]) s = .ok (u, ev)) : Performs s i u ev
  | receive {i : Instr} {f : Frame} {u : State} {ev : List Event} (hf : i = .rsmFrame f ∨ i = .frameFrag f)
      (h : receiveFrame f s = .ok (u, ev)) : Performs s i u ev
  | report {i : Instr} {f : Frame} {ev : List Event} (hf : encode i = .frame f)
      (h : receiveFrame f s = .ok (s, ev)) : Performs s i s ev
  | newSession : Performs s .sysNewsession s.newSession []
  | hardReset : Performs s .sysReset s.hardReset []

/-- A frame of a class other than the fragment's is reported, whatever the receive check says, and the state kept (R202,
R203). -/
theorem receiveFrame_keeps_of_not_fragment {f : Frame} {s u : State} {ev : List Event}
    (hk : classify s.cfg f ≠ .fragment) (h : receiveFrame f s = .ok (u, ev)) : u = s := by
  obtain ⟨-, -, hu, -⟩ | ⟨-, hu, -⟩ | ⟨_, -, hu, -⟩ | ⟨hf, -⟩ | ⟨-, hu, -⟩ := receiveFrame_cases h
  · exact hu
  · exact hu
  · exact hu
  · exact absurd hf hk
  · exact hu

/-- A FRAME row of a class other than the fragment's reports its frame. -/
theorem performs_of_frameRow {i : Instr} {k : FrameClass} {f : Frame} {s t : State} (hi : encode i = .frame f)
    (hk : k ≠ .fragment) (hdef : frameKindDefect s.cfg k f = none)
    (h : finish (verified f s (receiveClass k f s)) = .next t) :
    ∃ u v ev, t = u.deliver v ev ∧ Performs s i u ev := by
  rw [verified_receiveClass_of_frameKind hdef] at h
  obtain ⟨u, ev, hr, rfl⟩ := finish_next h
  obtain rfl := receiveFrame_keeps_of_not_fragment (by rwa [(classify_of_frameKind hdef).2]) hr
  exact ⟨_, _, _, rfl, .report hi hr⟩

/-- A LINE row is the arrival of the line it encodes to (R77, log 6). -/
theorem performs_of_lineRow {i : Instr} {l : Bytes} {s t : State} (hi : encode i = .line l)
    (h : lineArrives l s = .next t) : ∃ u v ev, t = u.deliver v ev ∧ Performs s i u ev := by
  obtain ⟨u, ev, hr, rfl⟩ := finish_next h
  exact ⟨_, _, _, rfl, .line hi hr⟩

/-- Inversion of `exec`: one delivery, and before it one of the cases of `Performs`. -/
theorem exec_next {i : Instr} {s t : State} (h : exec i s = .next t) :
    ∃ u v ev, t = u.deliver v ev ∧ Performs s i u ev := by
  rw [exec_eq_accept_performed] at h
  obtain ⟨-, hdef, hp⟩ := accept_next h
  cases i
  case sysStatus | chkGen | chkVfy | chkSeal | encRx | encTx | encTok | decLine | fclClass =>
    cases hp
    exact ⟨_, _, _, rfl, .value rfl⟩
  case decPush c =>
    obtain ⟨u, ev, hr, rfl⟩ := finish_next hp
    exact ⟨_, _, _, rfl, .push hr⟩
  case pipePush c =>
    obtain ⟨u, ev, hr, rfl⟩ := finish_next hp
    exact ⟨_, _, _, rfl, .pipe hr⟩
  case rsmFrame f =>
    obtain ⟨u, ev, hr, rfl⟩ := finish_next hp
    exact ⟨_, _, _, rfl, .receive (.inl rfl) hr⟩
  case sysNewsession =>
    cases hp
    exact ⟨_, _, _, rfl, .newSession⟩
  case sysReset =>
    cases hp
    exact ⟨_, _, _, rfl, .hardReset⟩
  case reservedD | reservedE => cases hp
  case lineBlank | lineRx | lineTx | lineTokReady | lineTokPong | lineTokPing | lineTokOther =>
    exact performs_of_lineRow rfl hp
  case frameFrag f =>
    obtain ⟨u, ev, hr, rfl⟩ := finish_next hp
    rw [verified_receiveClass_of_frameKind hdef] at hr
    exact ⟨_, _, _, rfl, .receive (.inr rfl) hr⟩
  case frameGo f => exact performs_of_frameRow rfl (by simp) hdef hp
  case frameShape k f => exact performs_of_frameRow rfl (by simp) hdef hp
  case frameUnrecognized f => exact performs_of_frameRow rfl (by simp) hdef hp

/-! ## What is written -/

/-- Only the eight elements of R20 are written: the configuration, the reset input, the port and the record are kept. -/
theorem Performs.frame {i : Instr} {s u : State} {ev : List Event} (h : Performs s i u ev) :
    u = { s with lb := u.lb, llen := u.llen, lovf := u.lovf, rb := u.rb, rlen := u.rlen, rst := u.rst, csl := u.csl,
                 cslValid := u.cslValid } := by
  cases h with
  | value => rfl
  | push h => rw [pushByte_frame h]
  | pipe h => exact pipeByte_frame h
  | line _ h => rw [pushBytes_frame h]
  | receive _ h => rw [receiveFrame_frame h]
  | report => rfl
  | newSession => rfl
  | hardReset => rfl

/-- Settles O9: by its frame an instruction writes none of the inputs, and it ends in one delivery. -/
theorem noOperationWritesInputs : Obligations.NoOperationWritesInputs := by
  intro i s t h
  obtain ⟨u, v, ev, rfl, hp⟩ := exec_next h
  rw [hp.frame]
  exact ⟨rfl, rfl, rfl, ⟨v, ev⟩, rfl⟩

/-- The reassembler's five elements are as they were (R32). -/
def sameReassembler (s u : State) : Prop :=
  u.rb = s.rb ∧ u.rlen = s.rlen ∧ u.rst = s.rst ∧ u.csl = s.csl ∧ u.cslValid = s.cslValid

/-- The decoder's three elements are as they were (R32). -/
def sameDecoder (s u : State) : Prop := u.lb = s.lb ∧ u.llen = s.llen ∧ u.lovf = s.lovf

theorem sameReassembler_refl (s : State) : sameReassembler s s := ⟨rfl, rfl, rfl, rfl, rfl⟩

theorem sameDecoder_refl (s : State) : sameDecoder s s := ⟨rfl, rfl, rfl⟩

theorem pushByte_sameReassembler {c : Byte} {s u : State} {ev : List Event} (h : pushByte c s = .ok (u, ev)) :
    sameReassembler s u := by
  rw [pushByte_frame h]
  exact sameReassembler_refl s

theorem pushByte_cslValid {c : Byte} {s u : State} {ev : List Event} (h : pushByte c s = .ok (u, ev)) :
    u.cslValid = s.cslValid := by
  rw [pushByte_frame h]

theorem pushBytes_sameReassembler {v : Bytes} {s u : State} {ev : List Event} (h : pushBytes v s = .ok (u, ev)) :
    sameReassembler s u := by
  rw [pushBytes_frame h]
  exact sameReassembler_refl s

theorem pushBytes_cslValid {v : Bytes} {s u : State} {ev : List Event} (h : pushBytes v s = .ok (u, ev)) :
    u.cslValid = s.cslValid := by
  rw [pushBytes_frame h]

theorem receiveFrame_sameDecoder {f : Frame} {s u : State} {ev : List Event} (h : receiveFrame f s = .ok (u, ev)) :
    sameDecoder s u := by
  rw [receiveFrame_frame h]
  exact sameDecoder_refl s

theorem receiveFrame_lovf {f : Frame} {s u : State} {ev : List Event} (h : receiveFrame f s = .ok (u, ev)) :
    u.lovf = s.lovf := by
  rw [receiveFrame_frame h]

theorem Performs.sameReassembler_or {i : Instr} {s u : State} {ev : List Event} (h : Performs s i u ev) :
    sameReassembler s u ∨ (∃ f, i = .rsmFrame f ∨ i = .frameFrag f) ∨ (∃ c, i = .pipePush c) ∨ i = .sysNewsession ∨
      i = .sysReset := by
  cases h with
  | value => exact .inl (sameReassembler_refl s)
  | push h => exact .inl (pushByte_sameReassembler h)
  | pipe => exact .inr (.inr (.inl ⟨_, rfl⟩))
  | line _ h => exact .inl (pushBytes_sameReassembler h)
  | receive hf => exact .inr (.inl ⟨_, hf⟩)
  | report => exact .inl (sameReassembler_refl s)
  | newSession => exact .inr (.inr (.inr (.inl rfl)))
  | hardReset => exact .inr (.inr (.inr (.inr rfl)))

theorem Performs.sameDecoder_or {i : Instr} {s u : State} {ev : List Event} (h : Performs s i u ev) :
    sameDecoder s u ∨ (∃ c, i = .decPush c ∨ i = .pipePush c) ∨ i = .sysReset ∨ ∃ l, encode i = .line l := by
  cases h with
  | value => exact .inl (sameDecoder_refl s)
  | push => exact .inr (.inl ⟨_, .inl rfl⟩)
  | pipe => exact .inr (.inl ⟨_, .inr rfl⟩)
  | line hl => exact .inr (.inr (.inr ⟨_, hl⟩))
  | receive _ h => exact .inl (receiveFrame_sameDecoder h)
  | report => exact .inl (sameDecoder_refl s)
  | newSession => exact .inl (sameDecoder_refl s)
  | hardReset => exact .inr (.inr (.inl rfl))

theorem exec_sysReset_next {s t : State} (h : exec .sysReset s = .next t) : t = s.hardReset.deliver none [] := by
  rw [exec_eq_accept_performed] at h
  obtain ⟨-, -, hp⟩ := accept_next h
  cases hp
  rfl

theorem exec_sysNewsession_next {s t : State} (h : exec .sysNewsession s = .next t) :
    t = s.newSession.deliver none [] := by
  rw [exec_eq_accept_performed] at h
  obtain ⟨-, -, hp⟩ := accept_next h
  cases hp
  rfl

/-- Settles O53: each unit by its own case analysis; the two resets leave the bytes of both buffers (R245, R248). -/
theorem eachUnitWritesItsOwnState : Obligations.EachUnitWritesItsOwnState := by
  intro i s t h
  refine ⟨?_, ?_, ?_⟩
  · obtain ⟨u, v, ev, rfl, hp⟩ := exec_next h
    exact hp.sameReassembler_or
  · obtain ⟨u, v, ev, rfl, hp⟩ := exec_next h
    exact hp.sameDecoder_or
  · rintro (rfl | rfl)
    · rw [exec_sysReset_next h]
      exact ⟨rfl, rfl⟩
    · rw [exec_sysNewsession_next h]
      exact ⟨rfl, rfl⟩

/-! ## The two flags -/

/-- `LOVF` after a pushed byte (R24): the terminator clears it, any other byte sets it where the buffer is full. -/
theorem pushByte_lovf {c : Byte} {s u : State} {ev : List Event} (h : pushByte c s = .ok (u, ev)) :
    u.lovf = s.lovf ∨ (u.lovf = true ∧ c ≠ lineTerm ∧ lineCap ≤ s.llen) ∨ (u.lovf = false ∧ c = lineTerm) := by
  unfold pushByte at h
  split at h
  · next hc =>
    obtain ⟨rfl, -⟩ := pushTerm_cases h
    exact .inr (.inr ⟨rfl, hc⟩)
  · next hc =>
    obtain ⟨-, ⟨-, rfl⟩ | ⟨hfull, rfl⟩⟩ := pushContent_cases h
    · exact .inl rfl
    · exact .inr (.inl ⟨rfl, hc, Nat.le_of_not_lt hfull⟩)

/-- The last of a run of pushes is a push of the last byte, with its state. -/
theorem pushBytes_concat_ok {v : Bytes} {c : Byte} {s u : State} {ev : List Event}
    (h : pushBytes (v ++ [c]) s = .ok (u, ev)) : ∃ w ev', pushByte c w = .ok (u, ev') := by
  induction v generalizing s ev with
  | nil =>
    simp only [List.nil_append, pushBytes] at h
    split at h
    · cases h
    · next p hp =>
      cases h
      exact ⟨s, p.2, hp⟩
  | cons d ds ih =>
    simp only [List.cons_append, pushBytes] at h
    split at h
    · cases h
    · split at h
      · cases h
      · next q hq =>
        cases h
        exact ih hq

theorem pushByte_term_lovf {s u : State} {ev : List Event} (h : pushByte lineTerm s = .ok (u, ev)) : u.lovf = false := by
  rw [pushByte, if_pos rfl] at h
  rw [(pushTerm_cases h).1]
  rfl

theorem pushBytes_line_lovf {l : Bytes} {s u : State} {ev : List Event}
    (h : pushBytes (l ++ [lineTerm]) s = .ok (u, ev)) : u.lovf = false := by
  obtain ⟨w, ev', hw⟩ := pushBytes_concat_ok h
  exact pushByte_term_lovf hw

/-- PIPE.PUSH leaves `LOVF` as DEC.PUSH does. -/
theorem pipeByte_lovf {c : Byte} {s u : State} {ev : List Event} (h : pipeByte c s = .ok (u, ev)) :
    u.lovf = s.lovf ∨ (u.lovf = true ∧ c ≠ lineTerm ∧ lineCap ≤ s.llen) ∨ (u.lovf = false ∧ c = lineTerm) := by
  obtain ⟨w, ev', hw, ⟨rfl, -⟩ | ⟨-, f, -, hr⟩⟩ := pipeByte_cases h
  · exact pushByte_lovf hw
  · rw [receiveFrame_lovf hr]
    exact pushByte_lovf hw

/-- What an instruction can do to `LOVF`. -/
theorem Performs.lovf {i : Instr} {s u : State} {ev : List Event} (h : Performs s i u ev) :
    u.lovf = s.lovf ∨
    (u.lovf = true ∧ ∃ c, (i = .decPush c ∨ i = .pipePush c) ∧ c ≠ lineTerm ∧ lineCap ≤ s.llen) ∨
    (u.lovf = false ∧ (i = .decPush lineTerm ∨ i = .pipePush lineTerm ∨ i = .sysReset ∨ ∃ l, encode i = .line l)) := by
  cases h with
  | value => exact .inl rfl
  | push h =>
    obtain hk | ⟨hu, hset⟩ | ⟨hu, rfl⟩ := pushByte_lovf h
    · exact .inl hk
    · exact .inr (.inl ⟨hu, _, .inl rfl, hset⟩)
    · exact .inr (.inr ⟨hu, .inl rfl⟩)
  | pipe h =>
    obtain hk | ⟨hu, hset⟩ | ⟨hu, rfl⟩ := pipeByte_lovf h
    · exact .inl hk
    · exact .inr (.inl ⟨hu, _, .inr rfl, hset⟩)
    · exact .inr (.inr ⟨hu, .inr (.inl rfl)⟩)
  | line hl h => exact .inr (.inr ⟨pushBytes_line_lovf h, .inr (.inr (.inr ⟨_, hl⟩))⟩)
  | receive _ h => exact .inl (receiveFrame_lovf h)
  | report => exact .inl rfl
  | newSession => exact .inl rfl
  | hardReset => exact .inr (.inr ⟨rfl, .inr (.inr (.inl rfl))⟩)

theorem acceptFragment_cslValid {more : Bool} {p : Bytes} {s u : State} {ev : List Event}
    (h : acceptFragment more p s = .ok (u, ev)) : u.cslValid = s.cslValid ∨ u.cslValid = true := by
  obtain ⟨-, rfl, -⟩ | ⟨-, -, rfl, -⟩ | ⟨-, -, q, hq⟩ := acceptFragment_cases h
  · exact .inl rfl
  · exact .inl rfl
  · obtain ⟨w, ev', hw, hu⟩ := complete_ok q (((s.setRb (s.rb.writeBytes s.rlen p)).setRlen 0).setRst .idle)
    rw [hq] at hw
    cases hw
    obtain rfl | ⟨-, rfl⟩ := hu
    · exact .inl rfl
    · exact .inr rfl

/-- A received frame never unpins the canonical length (R31). -/
theorem receiveFrame_cslValid {f : Frame} {s u : State} {ev : List Event} (h : receiveFrame f s = .ok (u, ev)) :
    u.cslValid = s.cslValid ∨ u.cslValid = true := by
  obtain ⟨-, -, rfl, -⟩ | ⟨-, rfl, -⟩ | ⟨_, -, rfl, -⟩ | ⟨-, hf⟩ | ⟨-, rfl, -⟩ := receiveFrame_cases h
  · exact .inl rfl
  · exact .inl rfl
  · exact .inl rfl
  · by_cases hr : s.rst = .resync
    · rw [fragStep_resync hr] at hf
      cases hf
      exact .inl (by split <;> rfl)
    · rw [fragStep_accepting hr] at hf
      exact acceptFragment_cslValid hf
  · exact .inl rfl

/-- PIPE.PUSH pins a length only where the terminator completes a received frame (R240). -/
theorem pipeByte_cslValid {c : Byte} {s u : State} {ev : List Event} (h : pipeByte c s = .ok (u, ev)) :
    u.cslValid = s.cslValid ∨ (u.cslValid = true ∧ c = lineTerm) := by
  obtain ⟨w, ev', hw, hcase⟩ := pipeByte_cases h
  have hkeep : w.cslValid = s.cslValid := pushByte_cslValid hw
  obtain ⟨rfl, -⟩ | ⟨hc, f, -, hr⟩ := hcase
  · exact .inl hkeep
  · obtain hu | hu := receiveFrame_cslValid hr
    · exact .inl (hu.trans hkeep)
    · exact .inr ⟨hu, hc⟩

/-- What an instruction can do to `CSL_VALID`. -/
theorem Performs.cslValid {i : Instr} {s u : State} {ev : List Event} (h : Performs s i u ev) :
    u.cslValid = s.cslValid ∨
    (u.cslValid = true ∧ ((∃ f, i = .rsmFrame f ∨ i = .frameFrag f) ∨ i = .pipePush lineTerm)) ∨
    (u.cslValid = false ∧ (i = .sysNewsession ∨ i = .sysReset)) := by
  cases h with
  | value => exact .inl rfl
  | push h => exact .inl (pushByte_cslValid h)
  | pipe h =>
    obtain hk | ⟨hu, rfl⟩ := pipeByte_cslValid h
    · exact .inl hk
    · exact .inr (.inl ⟨hu, .inr rfl⟩)
  | line _ h => exact .inl (pushBytes_cslValid h)
  | receive hf h => exact (receiveFrame_cslValid h).imp id fun hu => .inl ⟨hu, .inl ⟨_, hf⟩⟩
  | report => exact .inl rfl
  | newSession => exact .inr (.inr ⟨rfl, .inl rfl⟩)
  | hardReset => exact .inr (.inr ⟨rfl, .inr rfl⟩)

/-- Settles O54: a flag that has changed was not kept, and it stands at one of its two values. -/
theorem flagsChangeOnlyAsRuled : Obligations.FlagsChangeOnlyAsRuled := by
  intro i s t h
  obtain ⟨u, v, ev, rfl, hp⟩ := exec_next h
  simp only [State.deliver_lovf, State.deliver_cslValid]
  refine ⟨fun hold hnew => ?_, fun hold hnew => ?_, fun hold hnew => ?_, fun hold hnew => ?_⟩
  · exact ((hp.lovf.resolve_left (by simp [hold, hnew])).resolve_right (by simp [hnew])).2
  · exact ((hp.lovf.resolve_left (by simp [hold, hnew])).resolve_left (by simp [hnew])).2
  · exact ((hp.cslValid.resolve_left (by simp [hold, hnew])).resolve_right (by simp [hnew])).2
  · exact ((hp.cslValid.resolve_left (by simp [hold, hnew])).resolve_left (by simp [hnew])).2

end Sys2Proof.Machine

/-! SUPPORT. The port: the decoder reads back what is encoded, an operation does not look at what is still presented, and so
a run of the machine is the fold of the operations presented (R34, R60). -/

namespace Sys2Proof.Machine

/-! ## What is encoded is read back -/

theorem decodeLineFormat_pfxRx (r : Bytes) : decodeLineFormat (pfxRx ++ r) = .lineRx r := rfl

theorem decodeLineFormat_pfxTx (h : Bytes) : decodeLineFormat (pfxTx ++ h) = .lineTx h := rfl

theorem decodeLineFormat_other {t : Bytes} (h : otherDefect t = none) : decodeLineFormat t = .lineTokOther t := by
  rw [decodeLineFormat, (lineKind_of_other h).2]

/-- A term without defect is the one its encoding spells: a LINE term by what its content begins with or is (R77), a FRAME
term by the class of its frame (R82), an operation by its code (R84). -/
theorem decodeRaw_encode {cfg : Cfg} {i : Instr} (h : i.defect cfg = none) : decodeRaw cfg (encode i) = .ok i := by
  cases i
  case encTok k => cases k <;> rfl
  case lineRx r => exact congrArg Except.ok (decodeLineFormat_pfxRx r)
  case lineTx t => exact congrArg Except.ok (decodeLineFormat_pfxTx t)
  case lineTokOther t => exact congrArg Except.ok (decodeLineFormat_other h)
  case frameGo | frameShape | frameFrag | frameUnrecognized =>
    simp only [encode, decodeRaw, decodeFrameFormat, (classify_of_frameKind h).2]
  all_goals rfl

theorem decode_encode {cfg : Cfg} {i : Instr} (h : i.wf cfg = true) : decode cfg (encode i) = .ok i := by
  have hdef : i.defect cfg = none := Option.isNone_iff_eq_none.mp h
  simp only [decode, decodeRaw_encode hdef, hdef]

/-! ## What is still presented takes no part in an operation -/

/-- Statements that do the same beside every environment end in the same delivery whatever is presented. -/
theorem finish_withPort {g : State → Effect} {s t : State} (hon : ∀ e : Outside, g (e.on s) = e.onEffect (g s))
    (h : finish (g s) = .next t) (hreset : t.resetHeld = s.resetHeld) (hdone : ∃ d, t.delivered = s.delivered ++ [d])
    (p : List Input) : finish (g { s with port := p }) = .next { t with port := p } := by
  obtain ⟨u, ev, hg, rfl⟩ := finish_next h
  obtain ⟨d, hd⟩ := hdone
  have hu : u.delivered = s.delivered := (List.append_inj' hd rfl).1
  have hr : u.resetHeld = s.resetHeld := hreset
  have hs : ({ s with port := p } : State) = Outside.on ⟨u.resetHeld, p, u.delivered⟩ s := by
    rw [hu, hr]
    rfl
  rw [hs, hon, hg]
  rfl

/-- A FRAME row receives its frame as RSM.FRAME does, whatever is presented. -/
theorem frameRow_withPort {s t : State} {k : FrameClass} {f : Frame} (hdef : frameKindDefect s.cfg k f = none)
    (h : finish (verified f s (receiveClass k f s)) = .next t) (hreset : t.resetHeld = s.resetHeld)
    (hdone : ∃ d, t.delivered = s.delivered ++ [d]) (p : List Input) :
    finish (verified f { s with port := p } (receiveClass k f { s with port := p })) = .next { t with port := p } := by
  rw [verified_receiveClass_of_frameKind hdef] at h
  rw [verified_receiveClass_of_frameKind (s := { s with port := p }) hdef]
  exact finish_withPort (fun e => e.receiveFrame_on s f) h hreset hdone p

/-- An instruction that goes on does the same whatever else is presented. -/
theorem exec_withPort {i : Instr} {s t : State} (h : exec i s = .next t) (p : List Input) :
    exec i { s with port := p } = .next { t with port := p } := by
  obtain ⟨-, hreset, -, hdone⟩ := noOperationWritesInputs i s t h
  rw [exec_eq_accept_performed] at h ⊢
  obtain ⟨hw, hdef, hp⟩ := accept_next h
  rw [hdef, accept_of_wf (s := { s with port := p }) hw]
  cases i
  case sysStatus | chkGen | chkVfy | chkSeal | encRx | encTx | encTok | decLine | fclClass => cases hp; rfl
  case sysNewsession | sysReset => cases hp; rfl
  case reservedD | reservedE => cases hp
  case decPush c => exact finish_withPort (fun e => e.pushByte_on s c) hp hreset hdone p
  case pipePush c => exact finish_withPort (fun e => e.pipeByte_on s c) hp hreset hdone p
  case rsmFrame f => exact finish_withPort (fun e => e.receiveFrame_on s f) hp hreset hdone p
  case lineBlank | lineRx | lineTx | lineTokReady | lineTokPong | lineTokPing | lineTokOther =>
    exact finish_withPort (fun e => e.pushBytes_on s _) hp hreset hdone p
  case frameGo | frameShape | frameFrag | frameUnrecognized =>
    exact frameRow_withPort hdef hp hreset hdone p

/-! ## The step -/

theorem step_of_port_nil {s : State} (h : s.port = []) : step s = .next s := by
  simp only [step, h]

theorem step_of_port_cons {s : State} {x : Input} {rest : List Input} (h : s.port = x :: rest) :
    step s = takeInput x { s with port := rest } := by
  simp only [step, h]

/-- Outside reset the oldest transaction is decoded and performed (R60). -/
theorem step_of_decode_ok {s : State} {x : Transaction} {rest : List Input} {i : Instr} (hp : s.port = .present x :: rest)
    (hr : s.resetHeld = false) (hd : decode s.cfg x = .ok i) : step s = exec i { s with port := rest } := by
  rw [step_of_port_cons hp]
  simp [takeInput, takeTransaction, hr, hd]

/-- A transaction that spells no instruction is refused with what is wrong with it (R13). -/
theorem step_of_decode_error {s : State} {x : Transaction} {rest : List Input} {d : Defect}
    (hp : s.port = .present x :: rest) (hr : s.resetHeld = false) (hw : s.cfg.wf = true)
    (hd : decode s.cfg x = .error d) : step s = .refused (.operand d) := by
  rw [step_of_port_cons hp]
  simp [takeInput, takeTransaction, hr, hd, hw]

/-- Settles O5, each clause by what the decoder answers. -/
theorem stepPerformsOldestTransaction : Obligations.StepPerformsOldestTransaction :=
  fun _ _ _ hp hr hw => ⟨fun _ => step_of_decode_ok hp hr, fun _ => step_of_decode_error hp hr hw⟩

/-- Settles O6: with an empty port the step takes its idle branch (log 11). -/
theorem stepIdlesWhenNothingPresented : Obligations.StepIdlesWhenNothingPresented :=
  fun _ => step_of_port_nil

/-! ## The run -/

/-- A fold of operations that goes on: the first goes on, and the rest from where it leaves the machine. -/
theorem execAll_cons_next {i : Instr} {is : List Instr} {s t : State} (h : execAll (i :: is) s = .next t) :
    ∃ u, exec i s = .next u ∧ execAll is u = .next t := by
  unfold execAll at h
  split at h
  · next u hu => exact ⟨u, hu, h⟩
  · cases h
  · cases h

theorem run_succ_of_step {s t : State} (h : step s = .next t) (n : Nat) : core.run (n + 1) s = core.run n t := by
  simp only [Host.Core.run, show core.step s = .next t from h]

/-- Settles O11, by induction on the operations presented: each step takes the oldest one and does what it does beside `rest`
alone, and it keeps the configuration, the reset input and what is still presented. -/
theorem presentedOperationsRunInOrder : Obligations.PresentedOperationsRunInOrder := by
  intro is
  induction is with
  | nil =>
    intro s t rest _ _ _ hport hall
    simp only [List.map_nil, List.nil_append] at hport
    rw [← hport] at hall
    exact hall
  | cons i is ih =>
    intro s t rest hw hr hwf hport hall
    obtain ⟨u, hu, hothers⟩ := execAll_cons_next hall
    obtain ⟨hcfg, hreset, hrest, -⟩ := noOperationWritesInputs i _ u hu
    have hstep : step s = .next { u with port := is.map (fun i => .present (encode i)) ++ rest } := by
      rw [step_of_decode_ok hport hr (decode_encode (hwf i List.mem_cons_self))]
      exact exec_withPort hu _
    rw [List.length_cons, run_succ_of_step hstep]
    refine ih _ t rest (hcfg ▸ hw) (hreset.trans hr) (fun j hj => hcfg ▸ hwf j (List.mem_cons_of_mem i hj)) rfl ?_
    obtain rfl : u.port = rest := hrest
    exact hothers

end Sys2Proof.Machine

/-! SUPPORT. What an instruction can deliver: no event, one event, or the pinned length and the status of one payload (R61,
R212). -/

namespace Sys2Proof.Machine

/-- No event, one event, or the pin of a payload's length and then its status. -/
def singleOrPinStatus (ev : List Event) : Prop :=
  ev = [] ∨ (∃ e, ev = [e]) ∨ ∃ p, ev = [.canonicalLengthPinned p.length, .statusOnly p]

theorem singleOrPinStatus_nil : singleOrPinStatus [] := .inl rfl

theorem singleOrPinStatus_singleton (e : Event) : singleOrPinStatus [e] := .inr (.inl ⟨e, rfl⟩)

/-! ## The line decoder -/

theorem pushByte_singleOrPinStatus {c : Byte} {s u : State} {ev : List Event} (h : pushByte c s = .ok (u, ev)) :
    singleOrPinStatus ev :=
  (pushByte_events h).imp id fun he => .inl he.2

/-- A run of pushes: the first, then the others in the state it leaves. -/
theorem pushBytes_cons_ok {c : Byte} {v : Bytes} {s u : State} {ev : List Event}
    (h : pushBytes (c :: v) s = .ok (u, ev)) :
    ∃ w ev₁ ev₂, pushByte c s = .ok (w, ev₁) ∧ pushBytes v w = .ok (u, ev₂) ∧ ev = ev₁ ++ ev₂ := by
  unfold pushBytes at h
  split at h
  · cases h
  · next p hp =>
    split at h
    · cases h
    · next q hq =>
      cases h
      exact ⟨p.1, p.2, q.2, hp, hq, rfl⟩

/-- The events of a line are those of its terminator. -/
theorem pushBytes_line_ok {t : Bytes} {s u : State} {ev : List Event} (ht : lineTerm ∉ t)
    (h : pushBytes (t ++ [lineTerm]) s = .ok (u, ev)) : ∃ w, pushByte lineTerm w = .ok (u, ev) := by
  induction t generalizing s ev with
  | nil =>
    obtain ⟨w, ev₁, ev₂, hw, hnil, rfl⟩ := pushBytes_cons_ok h
    cases hnil
    exact ⟨s, by rw [hw, List.append_nil]⟩
  | cons c cs ih =>
    obtain ⟨w, ev₁, ev₂, hw, hrest, rfl⟩ := pushBytes_cons_ok h
    obtain rfl : ev₁ = [] := (pushByte_events hw).resolve_right fun he => List.ne_of_not_mem_cons ht he.1.symm
    exact ih (List.not_mem_of_not_mem_cons ht) hrest

/-- The content of a well-formed LINE term holds no terminator (R70). -/
theorem lineTerm_not_mem_of_encode {cfg : Cfg} {i : Instr} {l : Bytes} (hl : encode i = .line l)
    (hdef : i.defect cfg = none) : lineTerm ∉ l := by
  have happend {p r : Bytes} (hp : lineTerm ∉ p) (hr : contentDefect r = none) : lineTerm ∉ p ++ r :=
    List.not_mem_append hp (contentDefect_none.mp hr)
  cases i
  case lineBlank | lineTokReady | lineTokPong | lineTokPing => cases hl; decide
  case lineRx r => cases hl; exact happend (by decide) hdef
  case lineTx r => cases hl; exact happend (by decide) hdef
  case lineTokOther t => cases hl; exact (lineKind_of_other hdef).1
  all_goals cases hl

/-! ## The reassembler -/

theorem complete_singleOrPinStatus {p : Bytes} {s u : State} {ev : List Event} (h : complete p s = .ok (u, ev)) :
    singleOrPinStatus ev := by
  obtain ⟨-, e⟩ | ⟨-, -, e⟩ | ⟨-, -, -, e⟩ | ⟨-, -, -, e⟩ := complete_cases p s
  · rw [e] at h
    cases h
    exact .inr (.inr ⟨p, rfl⟩)
  all_goals
    rw [e] at h
    cases h
    exact singleOrPinStatus_singleton _

theorem fragStep_singleOrPinStatus {f : Frame} {s u : State} {ev : List Event} (h : fragStep f s = .ok (u, ev)) :
    singleOrPinStatus ev := by
  by_cases hr : s.rst = .resync
  · rw [fragStep_resync hr] at h
    cases h
    exact singleOrPinStatus_nil
  · rw [fragStep_accepting hr] at h
    obtain ⟨-, -, rfl⟩ | ⟨-, -, -, rfl⟩ | ⟨-, -, q, hq⟩ := acceptFragment_cases h
    · exact singleOrPinStatus_singleton _
    · exact singleOrPinStatus_nil
    · exact complete_singleOrPinStatus hq

theorem receiveFrame_singleOrPinStatus {f : Frame} {s u : State} {ev : List Event}
    (h : receiveFrame f s = .ok (u, ev)) : singleOrPinStatus ev := by
  obtain ⟨-, -, -, rfl⟩ | ⟨-, -, rfl⟩ | ⟨_, -, -, rfl⟩ | ⟨-, hf⟩ | ⟨-, -, rfl⟩ := receiveFrame_cases h
  case inr.inr.inr.inl => exact fragStep_singleOrPinStatus hf
  all_goals exact singleOrPinStatus_singleton _

/-! ## Every instruction -/

/-- The events of every well-formed instruction. -/
theorem Performs.singleOrPinStatus {i : Instr} {s u : State} {ev : List Event} (h : Performs s i u ev)
    (hdef : i.defect s.cfg = none) : singleOrPinStatus ev := by
  cases h with
  | value => exact singleOrPinStatus_nil
  | push h => exact pushByte_singleOrPinStatus h
  | pipe h =>
    obtain ⟨w, ev', hw, ⟨-, rfl⟩ | ⟨-, f, -, hr⟩⟩ := pipeByte_cases h
    · exact pushByte_singleOrPinStatus hw
    · exact receiveFrame_singleOrPinStatus hr
  | line hl h =>
    obtain ⟨w, hw⟩ := pushBytes_line_ok (lineTerm_not_mem_of_encode hl hdef) h
    exact pushByte_singleOrPinStatus hw
  | receive _ h => exact receiveFrame_singleOrPinStatus h
  | report _ h => exact receiveFrame_singleOrPinStatus h
  | newSession => exact singleOrPinStatus_nil
  | hardReset => exact singleOrPinStatus_nil

/-- An instruction that goes on was accepted, so it has no defect. -/
theorem exec_next_defect {i : Instr} {s t : State} (h : exec i s = .next t) : i.defect s.cfg = none := by
  rw [exec_eq_accept_performed] at h
  exact (accept_next h).2.1

/-- The one delivery of an instruction that goes on holds the events of its performance (R61). -/
theorem exec_events_singleOrPinStatus {i : Instr} {s t : State} (h : exec i s = .next t) {d : Delivery}
    (hd : t.delivered = s.delivered ++ [d]) : singleOrPinStatus d.events := by
  obtain ⟨u, v, ev, rfl, hp⟩ := exec_next h
  have hu : u.delivered = s.delivered := by rw [hp.frame]
  rw [State.deliver_delivered, hu] at hd
  obtain rfl : ⟨v, ev⟩ = d := by simpa using hd
  exact hp.singleOrPinStatus (exec_next_defect h)

/-- Settles O46, by the three forms an event list can have. -/
theorem twoEventsArePinThenStatus : Obligations.TwoEventsArePinThenStatus := by
  intro i s t h d hd
  obtain hnil | ⟨e, hone⟩ | htwo := exec_events_singleOrPinStatus h hd
  · exact .inl (by simp [hnil])
  · exact .inl (by simp [hone])
  · exact .inr htwo

end Sys2Proof.Machine

/-! SUPPORT. The statements on the encoding: decoding and encoding undo each other (R77, R82, R84), the rows of the LINE and
FRAME formats perform what their line or frame makes the units do (R87, R201), and the reserved codes (R88). -/

namespace Sys2Proof.Machine

/-! ## Decoding and encoding -/

/-- Settles O1: a well-formed instruction is the one its encoding spells. -/
theorem decodeOfEncodeIsInstruction : Obligations.DecodeOfEncodeIsInstruction :=
  fun _ _ => decode_encode

theorem withNone_ok {operand : Bytes} {i j : Instr} (h : withNone operand i = .ok j) : operand = [] ∧ j = i := by
  unfold withNone at h
  split at h
  · next hnil => cases h; exact ⟨hnil, rfl⟩
  · cases h

theorem withByte_ok {operand : Bytes} {mk : Byte → Instr} {j : Instr} (h : withByte operand mk = .ok j) :
    ∃ c, operand = [c] ∧ j = mk c := by
  unfold withByte at h
  split at h
  · next c => cases h; exact ⟨c, rfl, rfl⟩
  · cases h

/-- A byte that names a token id is its code (R86). -/
theorem tokenIdCode_of_tokenIdOf {b : Byte} {k : TokenId} (h : tokenIdOf b = some k) : tokenIdCode k = b := by
  unfold tokenIdOf at h
  split_ifs at h with h0 h1 h2 h3 <;> cases h
  · exact h0.symm
  · exact h1.symm
  · exact h2.symm
  · exact h3.symm

theorem withToken_ok {operand : Bytes} {mk : TokenId → Instr} {j : Instr} (h : withToken operand mk = .ok j) :
    ∃ k, operand = [tokenIdCode k] ∧ j = mk k := by
  unfold withToken at h
  split at h
  · next b =>
    split at h
    · next k hk => cases h; exact ⟨k, by rw [tokenIdCode_of_tokenIdOf hk], rfl⟩
    · cases h
  · cases h

theorem op_of_code_toNat {code : BitVec 4} {n : Nat} (h : code.toNat = n) (operand : Bytes) :
    Transaction.op (BitVec.ofNat 4 n) operand = .op code operand := by
  rw [← h, BitVec.ofNat_toNat, BitVec.setWidth_eq]

/-- The sixteen codes of R84: what is read under a code with an operand is encoded with that code and that operand. -/
theorem encode_of_decodeOp {code : BitVec 4} {operand : Bytes} {i : Instr} (h : decodeOp code operand = .ok i) :
    encode i = .op code operand := by
  unfold decodeOp at h
  split at h
  -- no operand: SYS.STATUS, SYS.NEWSESSION, the reserved codes, SYS.RESET
  case h_1 hcode | h_13 hcode | h_14 hcode | h_15 hcode | h_16 hcode =>
    obtain ⟨rfl, rfl⟩ := withNone_ok h
    exact op_of_code_toNat hcode _
  -- one stream byte: DEC.PUSH, PIPE.PUSH
  case h_9 hcode | h_12 hcode =>
    obtain ⟨c, rfl, rfl⟩ := withByte_ok h
    exact op_of_code_toNat hcode _
  -- a token id: ENC.TOK
  case h_7 hcode =>
    obtain ⟨k, rfl, rfl⟩ := withToken_ok h
    exact op_of_code_toNat hcode _
  -- a frame or a line content: CHK, ENC.RX, ENC.TX, DEC.LINE, FCL.CLASS, RSM.FRAME
  case h_2 hcode | h_3 hcode | h_4 hcode | h_5 hcode | h_6 hcode | h_8 hcode | h_10 hcode | h_11 hcode =>
    cases h
    exact op_of_code_toNat hcode _
  case h_17 => cases h

/-- The seven kinds of R77: the three bytes or the token that the kind was read from stand in the encoding. -/
theorem encode_decodeLineFormat (t : Bytes) : encode (decodeLineFormat t) = .line t := by
  unfold decodeLineFormat lineKind
  split_ifs with hblank hrx htx hready hpong hping
  · rw [hblank]; rfl
  · simp only [encode, ← hrx, List.take_append_drop]
  · simp only [encode, ← htx, List.take_append_drop]
  · rw [hready]; rfl
  · rw [hpong]; rfl
  · rw [hping]; rfl
  · rfl

theorem encode_decodeFrameFormat (cfg : Cfg) (f : Frame) : encode (decodeFrameFormat cfg f) = .frame f := by
  unfold decodeFrameFormat
  split <;> rfl

theorem encode_of_decodeRaw {cfg : Cfg} {t : Transaction} {i : Instr} (h : decodeRaw cfg t = .ok i) : encode i = t := by
  cases t with
  | op code operand => exact encode_of_decodeOp h
  | line content => cases h; exact encode_decodeLineFormat content
  | frame f => cases h; exact encode_decodeFrameFormat cfg f

/-- What the decoder accepts is the term the transaction spells, and that term has no defect. -/
theorem decode_ok {cfg : Cfg} {t : Transaction} {i : Instr} (h : decode cfg t = .ok i) :
    decodeRaw cfg t = .ok i ∧ i.defect cfg = none := by
  unfold decode at h
  split at h
  · cases h
  · next j hraw =>
    split at h
    · cases h
    · next hdef => cases h; exact ⟨hraw, hdef⟩

/-- Settles O2: the term spelt is without defect, and in each format it encodes to what was presented. -/
theorem decodedTransactionReencodes : Obligations.DecodedTransactionReencodes := by
  intro cfg t i h
  obtain ⟨hraw, hdef⟩ := decode_ok h
  exact ⟨Option.isNone_iff_eq_none.mpr hdef, encode_of_decodeRaw hraw⟩

/-- Settles O3: each word is the encoding of a well-formed instruction (R72, R74, R79, R80, R84, R86). -/
theorem writtenOutWordsDecode : Obligations.WrittenOutWordsDecode :=
  ⟨decode_encode (i := .chkGen _) (by decide), decode_encode (i := .encTok .version) rfl,
    decode_encode (i := .decPush _) rfl, decode_encode (i := .reservedD) rfl,
    decode_encode (i := .lineRx _) (by decide), decode_encode (i := .lineTokPing) rfl,
    decode_encode (i := .frameGo _) (by decide), decode_encode (i := .frameFrag _) (by decide)⟩

/-! ## Acceptance -/

/-- A well-formed instruction under a well-formed configuration is accepted (R9, R13). -/
theorem exec_of_defect_none {s : State} {i : Instr} (hw : s.cfg.wf = true) (hdef : i.defect s.cfg = none) :
    exec i s = performed i s := by
  rw [exec_eq_accept_performed, hdef, accept_of_wf hw]

/-! ## The LINE rows -/

/-- A LINE row performs the arrival of the line it encodes to (R77, log 6). -/
theorem performed_of_encode_line {i : Instr} {t : Bytes} (h : encode i = .line t) (s : State) :
    performed i s = lineArrives t s := by
  cases i
  case lineBlank | lineRx | lineTx | lineTokReady | lineTokPong | lineTokPing | lineTokOther => cases h; rfl
  all_goals cases h

theorem exec_of_encode_line {s : State} {i : Instr} {t : Bytes} (hw : s.cfg.wf = true) (hdef : i.defect s.cfg = none)
    (h : encode i = .line t) : exec i s = lineArrives t s := by
  rw [exec_of_defect_none hw hdef, performed_of_encode_line h]

theorem writtenAt_writeBytes (m : Memory) (a : Nat) (v : Bytes) : writtenAt m (m.writeBytes a v) a v := by
  refine ⟨fun i hi => ?_, fun x hx => ?_⟩
  · rw [Memory.read_writeBytes, if_pos (by omega), Nat.add_sub_cancel_left]
  · rw [Memory.read_writeBytes, if_neg (by omega)]

/-- Settles O37. While no line is in progress, the closed form of the pushes says what is stored and reported. In any legal
state the pushes answer, and the instructions of DEC.PUSHS leave the same state and emit the same events. -/
theorem lineRowsReportTheirLine : Obligations.LineRowsReportTheirLine := by
  refine ⟨fun s i t hw hlen hovf hwf henc => ?_, fun s i t hi hwf henc => ?_⟩
  · have hdef : i.defect s.cfg = none := Option.isNone_iff_eq_none.mp hwf
    have hline := pushBytes_line t s (lineTerm_not_mem_of_encode henc hdef) hlen hovf
    refine ⟨_, ?_, writtenAt_writeBytes s.lb 0 (t.take lineCap)⟩
    rw [exec_of_encode_line hw hdef henc, lineArrives, hline]
    rfl
  · have hdef : i.defect s.cfg = none := Option.isNone_iff_eq_none.mp hwf
    obtain ⟨u, ev, hpush, -⟩ := pushBytes_inv (t ++ [lineTerm]) hi
    obtain ⟨ds, hall, rfl⟩ := execAll_decPushs _ hi.cfgWf hpush
    have hdone : u.delivered = s.delivered := by rw [pushBytes_frame hpush]
    refine ⟨_, ds, hall, rfl, ?_⟩
    rw [exec_of_encode_line hi.cfgWf hdef henc, lineArrives, hpush, finish_ok, State.deliver, hdone]

/-! ## The FRAME rows -/

/-- A FRAME row without defect performs the receipt of its frame (R82, R201, log 7). -/
theorem performed_of_encode_frame {s : State} {i : Instr} {f : Frame} (hdef : i.defect s.cfg = none)
    (h : encode i = .frame f) : performed i s = finish (receiveFrame f s) := by
  cases i
  case frameGo | frameShape | frameFrag | frameUnrecognized =>
    cases h
    exact congrArg finish (verified_receiveClass_of_frameKind hdef)
  all_goals cases h

/-- The frame of a FRAME term without defect is a legal operand (R13, R82). -/
theorem frameDefect_of_encode_frame {cfg : Cfg} {i : Instr} {f : Frame} (hdef : i.defect cfg = none)
    (h : encode i = .frame f) : frameDefect f = none := by
  cases i
  case frameGo | frameShape | frameFrag | frameUnrecognized =>
    cases h
    exact (classify_of_frameKind hdef).1
  all_goals cases h

/-- Settles O48: both are accepted and receive the frame, which answers from a legal state. -/
theorem frameRowsActAsRsmFrame : Obligations.FrameRowsActAsRsmFrame := by
  intro s i f hi hwf henc
  have hdef : i.defect s.cfg = none := Option.isNone_iff_eq_none.mp hwf
  have hrow : exec i s = finish (receiveFrame f s) := by
    rw [exec_of_defect_none hi.cfgWf hdef, performed_of_encode_frame hdef henc]
  have hrsm : exec (.rsmFrame f) s = finish (receiveFrame f s) :=
    exec_of_defect_none hi.cfgWf (frameDefect_of_encode_frame hdef henc)
  obtain ⟨u, ev, hu, -⟩ := receiveFrame_inv f hi
  exact ⟨hrow.trans hrsm.symm, _, by rw [hrow, hu, finish_ok]⟩

/-! ## Reserved codes and TXCMD -/

/-- Settles O4: a reserved code is accepted under a well-formed configuration and then refused by name (R88). -/
theorem reservedCodesAreRefused : Obligations.ReservedCodesAreRefused := by
  refine ⟨rfl, rfl, fun s hw => ⟨exec_of_defect_none hw rfl, exec_of_defect_none hw rfl⟩, fun r => ?_⟩
  cases r <;> decide

/-- Sealing keeps the length of a frame that has a last byte (R113). -/
theorem chkSeal_length {f : Frame} (h : 1 ≤ f.length) : (chkSeal f).length = f.length := by
  rw [chkSeal, List.length_append, List.length_dropLast, List.length_singleton]
  omega

theorem exec_chkSeal_of_legal {s : State} {f : Frame} (hw : s.cfg.wf = true) (hf : legalFrame f) :
    exec (.chkSeal f) s = .next (s.deliver (some (.frame (chkSeal f))) []) :=
  exec_of_defect_none hw (frameDefect_none.mpr hf)

theorem exec_encTx_of_legal {s : State} {f : Frame} (hw : s.cfg.wf = true) (hf : legalFrame f) :
    exec (.encTx f) s = .next (s.deliver (some (.line (encTxLine f))) []) :=
  exec_of_defect_none hw (frameDefect_none.mpr hf)

/-- Settles O27: the sealed frame is as long as the frame, so both operations are accepted in turn (R90, R241). -/
theorem txCommandSealsThenEnvelopes : Obligations.TxCommandSealsThenEnvelopes := by
  intro s f hw hf
  have hsealed : legalFrame (chkSeal f) := by rwa [legalFrame, chkSeal_length hf.1]
  rw [txCmd, execAll, exec_chkSeal_of_legal hw hf]
  simp only [execAll, exec_encTx_of_legal (s := s.deliver _ _) hw hsealed]
  rfl

end Sys2Proof.Machine

/-! SUPPORT. The statements on the checksum unit: the three operations on a frame whose last byte is named, the
exclusive-or after one byte is replaced, and the laws of R114. -/

namespace Sys2Proof.Machine

/-! ## Frames at the port -/

theorem frameDefect_of_illegalFrame {f : Frame} (hf : illegalFrame f) : frameDefect f = some .frameLength :=
  if_neg fun h => by
    obtain ⟨hmin, hmax⟩ : 1 ≤ f.length ∧ f.length ≤ 128 := h
    omega

/-- An operation whose operand is a frame is performed on a legal one (R13, R87). -/
theorem exec_of_legalFrame {s : State} {i : Instr} {f : Frame} (hw : s.cfg.wf = true)
    (hdef : i.defect s.cfg = frameDefect f) (hf : legalFrame f) : exec i s = performed i s :=
  exec_of_defect_none hw (hdef.trans (frameDefect_none.mpr hf))

/-- An operation whose operand is a frame refuses an illegal one (R13, R87). -/
theorem exec_of_illegalFrame {s : State} {i : Instr} {f : Frame} (hw : s.cfg.wf = true)
    (hdef : i.defect s.cfg = frameDefect f) (hf : illegalFrame f) : exec i s = .refused (.operand .frameLength) := by
  rw [exec_eq_accept_performed, hdef, frameDefect_of_illegalFrame hf, accept, if_pos hw]

theorem exists_append_of_legalFrame {f : Frame} (hf : legalFrame f) : ∃ g c, f = g ++ [c] :=
  (List.eq_nil_or_concat' f).resolve_left (List.ne_nil_of_length_pos hf.1)

/-! ## The exclusive-or -/

theorem foldl_xor_zero (a : Bytes) : a.foldl (fun acc b => acc ^^^ b) 0x00#8 = xorAll a := by
  rw [foldl_xor, BitVec.zero_xor]

@[simp] theorem xorAll_concat (g : Bytes) (c : Byte) : xorAll (g ++ [c]) = xorAll g ^^^ c := by
  rw [xorAll_append, xorAll, xorAll, BitVec.xor_zero]

/-- Replacing a byte changes the exclusive-or by the difference of the two bytes. -/
theorem xorAll_set {l : Bytes} {j : Nat} {x : Byte} (hx : l[j]? = some x) (b : Byte) :
    xorAll (l.set j b) = xorAll l ^^^ (x ^^^ b) := by
  induction l generalizing j with
  | nil => cases hx
  | cons c cs ih =>
    cases j with
    | zero =>
      cases hx
      rw [List.set_cons_zero, xorAll, xorAll, BitVec.xor_comm x, BitVec.xor_assoc, ← BitVec.xor_assoc x,
        BitVec.xor_self, BitVec.zero_xor, BitVec.xor_comm]
    | succ j =>
      rw [List.set_cons_succ, xorAll, xorAll, ih hx, BitVec.xor_assoc]

/-! ## The three operations on a frame whose last byte is named -/

@[simp] theorem chkGen_concat (g : Bytes) (c : Byte) : chkGen (g ++ [c]) = xorAll g := by
  rw [chkGen, List.dropLast_concat]

@[simp] theorem chkSeal_concat (g : Bytes) (c : Byte) : chkSeal (g ++ [c]) = g ++ [xorAll g] := by
  rw [chkSeal, List.dropLast_concat, chkGen_concat]

theorem chkVfy_iff {f : Frame} : chkVfy f = true ↔ xorAll f = 0x00#8 := beq_iff_eq

theorem chkVfy_concat {g : Bytes} {c : Byte} : chkVfy (g ++ [c]) = true ↔ c = xorAll g := by
  rw [chkVfy_iff, xorAll_concat, BitVec.xor_eq_zero_iff, eq_comm]

/-- R114 law 1. It needs no length: the empty sequence is sealed by a single 0x00. -/
theorem xorAll_chkSeal (f : Frame) : xorAll (chkSeal f) = 0x00#8 := by
  rw [chkSeal, xorAll_concat, chkGen, BitVec.xor_self]

/-- Law 5 of R114, first half: the exclusive-or of a sealed frame becomes the difference of the two bytes. -/
theorem chkVfy_set_chkSeal {f : Frame} {j : Nat} {x b : Byte} (hx : (chkSeal f)[j]? = some x) (hne : x ≠ b) :
    chkVfy ((chkSeal f).set j b) = false := by
  rw [Bool.eq_false_iff, ne_eq, chkVfy_iff, xorAll_set hx, xorAll_chkSeal, BitVec.zero_xor, BitVec.xor_eq_zero_iff]
  exact hne

/-- Law 5 of R114, second half: the same difference at two places cancels. -/
theorem chkVfy_set_set_chkSeal {f : Frame} {j k : Nat} {x y : Byte} (d : Byte) (hjk : j ≠ k)
    (hx : (chkSeal f)[j]? = some x) (hy : (chkSeal f)[k]? = some y) :
    chkVfy (((chkSeal f).set j (x ^^^ d)).set k (y ^^^ d)) = true := by
  have hy' : ((chkSeal f).set j (x ^^^ d))[k]? = some y := by rwa [List.getElem?_set_ne hjk]
  rw [chkVfy_iff, xorAll_set hy', xorAll_set hx, xorAll_chkSeal]
  simp only [← BitVec.xor_assoc, BitVec.xor_self, BitVec.zero_xor]

/-! ## The statements -/

/-- Settles O21: laws 1 and 5 by the exclusive-or of a sealed frame, laws 2, 4 and 6 by naming the last byte. -/
theorem checksumLaws : Obligations.ChecksumLaws := by
  refine ⟨fun f _ => chkVfy_iff.mpr (xorAll_chkSeal f), fun f hf => ?_, fun f f' _ h => congrArg chkGen h,
    fun g g' c _ hperm => ?_, fun f j b hf hj hb => ?_,
    fun f j k x y d _ hjk _ hx hy => chkVfy_set_set_chkSeal d hjk.ne hx hy, fun g c _ => ?_⟩
  · obtain ⟨g, c, rfl⟩ := exists_append_of_legalFrame hf
    rw [chkSeal_concat, chkGen_concat, chkGen_concat]
  · rw [chkGen_concat, chkGen_concat, xorAll_perm hperm]
  · rw [← chkSeal_length hf.1] at hj
    have hx : (chkSeal f)[j]? = some (chkSeal f)[j] := List.getElem?_eq_getElem hj
    exact chkVfy_set_chkSeal hx fun h => hb (h ▸ hx)
  · rw [chkVfy_concat, foldl_xor_zero]

/-- Settles O19: the last byte makes the exclusive-or zero exactly when it is that of the bytes before it. -/
theorem chkVfyTestsWholeXor : Obligations.ChkVfyTestsWholeXor := by
  refine ⟨fun _ => rfl, fun s f hw hf => ?_, fun f hf => ?_, fun s f hw hf => exec_of_illegalFrame hw rfl hf⟩
  · rw [exec_of_legalFrame (i := .chkVfy f) hw rfl hf, foldl_xor_zero]
    rfl
  · obtain ⟨g, c, rfl⟩ := exists_append_of_legalFrame hf
    rw [chkVfy_concat, chkGen_concat, ← List.getLast?_eq_getElem?, List.getLast?_concat, Option.some_inj]

/-- Settles O20: with the last byte named, sealing puts the exclusive-or of the bytes before it in its place. -/
theorem chkSealOverwritesLastByte : Obligations.ChkSealOverwritesLastByte := by
  refine ⟨fun _ => rfl, fun s f hw hf => ?_, fun f hf => ⟨chkSeal_length hf.1, ?_⟩,
    fun s f hw hf => exec_of_illegalFrame hw rfl hf⟩
  · rw [exec_chkSeal_of_legal hw hf, chkSeal, List.dropLast_eq_take]
  · obtain ⟨g, c, rfl⟩ := exists_append_of_legalFrame hf
    refine ⟨by simp only [chkSeal_concat], fun hverified => ?_⟩
    rw [chkSeal_concat, ← chkVfy_concat.mp hverified]

/-- Settles O18: the loop over the bytes before the last is their exclusive-or, in which the last does not occur. -/
theorem chkGenReturnsXorOfCoveredBytes : Obligations.ChkGenReturnsXorOfCoveredBytes := by
  refine ⟨fun _ => rfl, fun s f hw hf => ?_, fun g x y => ?_, fun s f hw hf => exec_of_illegalFrame hw rfl hf⟩
  · rw [exec_of_legalFrame (i := .chkGen f) hw rfl hf, foldl_xor_zero, ← List.dropLast_eq_take]
    rfl
  · rw [chkGen_concat, chkGen_concat]

end Sys2Proof.Machine

/-! SUPPORT. The statements on the encoder: the contents of the lines it writes, their lengths, and that the decoder reads
each of them back, as a whole and byte by byte. -/

namespace Sys2Proof.Machine

/-! ## The contents of envelope lines -/

/-- The content of the RX line of `f`: `RX:` and, behind it, the two fields of R131. -/
def rxContent (f : Frame) : Bytes := pfxRx ++ (dec f.length ++ [colon] ++ hexstr f)

/-- The content of the TX line of `f` (R132). -/
def txContent (f : Frame) : Bytes := pfxTx ++ hexstr f

theorem encRxLine_eq (f : Frame) : encRxLine f = rxContent f ++ [lineTerm] := by
  simp only [encRxLine, rxContent, List.append_assoc]

theorem encTxLine_eq (f : Frame) : encTxLine f = txContent f ++ [lineTerm] := rfl

theorem rxContent_length (f : Frame) : (rxContent f).length = 3 + (dec f.length).length + 1 + 2 * f.length := by
  simp only [rxContent, pfxRx, List.length_append, List.length_cons, List.length_nil, hexstr_length]
  omega

theorem txContent_length (f : Frame) : (txContent f).length = 3 + 2 * f.length := by
  rw [txContent, List.length_append, hexstr_length]
  rfl

/-- The content of an RX line fits the line buffer: the length of a legal frame has at most three digits (R131). -/
theorem rxContent_length_le {f : Frame} (hf : legalFrame f) : (rxContent f).length ≤ lineCap := by
  have hdigits : (dec f.length).length ≤ 3 := decDigits_length_le (by omega) (by omega)
  rw [rxContent_length, lineCap]
  omega

theorem lineTerm_not_mem_hexstr (f : Frame) : lineTerm ∉ hexstr f :=
  fun hm => ishex_ne_term (hexstr_ishex f _ hm) rfl

theorem lineTerm_not_mem_rxContent {f : Frame} (hf : legalFrame f) : lineTerm ∉ rxContent f := by
  obtain ⟨-, -, -, -, hdec⟩ := dec_reads_back f.length (by omega)
  have hfields : lineTerm ∉ dec f.length ++ [colon] ++ hexstr f :=
    List.not_mem_append (List.not_mem_append hdec (by decide)) (lineTerm_not_mem_hexstr f)
  exact List.not_mem_append (by decide) hfields

/-! ## What is written is read back -/

theorem decodeLine_pfxRx (cfg : Cfg) (r : Bytes) : decodeLine cfg (pfxRx ++ r) = decodeRx cfg r := rfl

theorem decodeLine_pfxTx (cfg : Cfg) (h : Bytes) : decodeLine cfg (pfxTx ++ h) = decodeTx cfg h := rfl

/-- The decoder's size test lets a legal frame pass (R152, R153). -/
theorem not_badSize_of_legalFrame {f : Frame} (hf : legalFrame f) :
    ¬ (f.length < frameMin ∨ frameMax < f.length) := by
  rw [frameMin, frameMax]
  omega

/-- In both hex modes: the first colon ends the length field, which reads back, and so do the hex digits. -/
theorem decodeLine_rxContent (cfg : Cfg) {f : Frame} (hf : legalFrame f) :
    decodeLine cfg (rxContent f) = .rxFrame f := by
  obtain ⟨hback, -, -, hcolon, -⟩ := dec_reads_back f.length (by omega)
  rw [rxContent, decodeLine_pfxRx, decodeRx, splitColon_some _ _ hcolon]
  simp only [hback, hexdec_hexstr, ne_eq, not_true_eq_false, if_false, if_neg (not_badSize_of_legalFrame hf)]

theorem decodeLine_txContent (cfg : Cfg) {f : Frame} (hf : legalFrame f) :
    decodeLine cfg (txContent f) = .txFrame f := by
  rw [txContent, decodeLine_pfxTx, decodeTx, hexdec_hexstr]
  exact if_neg (not_badSize_of_legalFrame hf)

theorem decodeLine_of_other (cfg : Cfg) {t : Bytes} (h : lineKind t = .other) :
    decodeLine cfg t = .token .other t := by
  rw [decodeLine, h]

theorem take_three_ne_of_not_isPrefixOf {p v : Bytes} (h : p.isPrefixOf v = false) :
    v.take 3 ≠ p := by
  intro htake
  have hprefix : p <+: v := htake ▸ List.take_prefix 3 v
  rw [List.isPrefixOf_iff_prefix.mpr hprefix] at h
  cases h

/-- A version token that R7 allows is none of the earlier kinds of R77. -/
theorem lineKind_versionToken {v : Bytes} (h : versionTokenWf v = true) : lineKind v = .other := by
  simp only [versionTokenWf, Bool.and_eq_true, Bool.not_eq_true', decide_eq_true_eq, beq_eq_false_iff_ne] at h
  obtain ⟨⟨⟨⟨⟨⟨⟨hpos, -⟩, -⟩, hrx⟩, htx⟩, hready⟩, hpong⟩, hping⟩ := h
  rw [lineKind, if_neg (List.ne_nil_of_length_pos hpos), if_neg (take_three_ne_of_not_isPrefixOf hrx),
    if_neg (take_three_ne_of_not_isPrefixOf htx), if_neg hready, if_neg hpong, if_neg hping]

theorem versionTokenWf_of_cfgWf {c : Cfg} (h : c.wf = true) : versionTokenWf c.versionToken = true := by
  rw [Cfg.wf, Bool.and_eq_true] at h
  exact h.2

theorem encTokLine_dropLast (cfg : Cfg) (k : TokenId) : (encTokLine cfg k).dropLast = tokenText cfg k :=
  List.dropLast_concat

/-- A line that arrives byte by byte while none is in progress, and fits the line buffer: its envelope is reported, and only
`LB` is written (R170). -/
theorem execAll_decPushs_line {s : State} {t : Bytes} (hw : s.cfg.wf = true) (hlen : s.llen = 0) (hovf : s.lovf = false)
    (ht : lineTerm ∉ t) (hcap : t.length ≤ lineCap) :
    ∃ m ds, execAll (decPushs (t ++ [lineTerm])) s = .next { s with lb := m, delivered := s.delivered ++ ds } ∧
      eventsOf ds = envelopeEvents t (decodeLine s.cfg t) := by
  have hline := pushBytes_line t s ht hlen hovf
  rw [if_neg (Nat.not_lt.mpr hcap)] at hline
  obtain ⟨ds, hall, hev⟩ := execAll_decPushs _ hw hline
  exact ⟨_, ds, hall, hev⟩

/-- Settles O26. A whole line is read back through its content; streamed, the same content arrives, and its envelope is
reported. -/
theorem encodedLinesDecodeBack : Obligations.EncodedLinesDecodeBack := by
  refine ⟨fun cfg f hf => ⟨?_, ?_⟩, fun cfg hw => ?_, fun s f hw hlen hovf hf => ?_⟩
  · rw [encRxLine_eq, List.dropLast_concat, decodeLine_rxContent cfg hf]
  · rw [encTxLine_eq, List.dropLast_concat, decodeLine_txContent cfg hf]
  · simp only [encTokLine_dropLast]
    exact ⟨rfl, rfl, rfl, decodeLine_of_other cfg (lineKind_versionToken (versionTokenWf_of_cfgWf hw))⟩
  · have hstream := execAll_decPushs_line hw hlen hovf (lineTerm_not_mem_rxContent hf) (rxContent_length_le hf)
    rwa [← encRxLine_eq, decodeLine_rxContent s.cfg hf] at hstream

/-! ## What the encoder writes -/

/-- Settles O23: a legal frame is accepted and an illegal one refused; the line is one byte longer than its content. -/
theorem encRxWritesRxLine : Obligations.EncRxWritesRxLine := by
  refine ⟨fun _ => rfl, fun s f hw hf => exec_of_legalFrame hw rfl hf, fun f hf => ?_,
    fun s f hw hf => exec_of_illegalFrame hw rfl hf⟩
  have hcap : (rxContent f).length ≤ 263 := rxContent_length_le hf
  rw [encRxLine_eq, List.length_append, List.length_singleton, ← rxContent_length]
  exact ⟨rfl, Nat.succ_le_succ hcap⟩

/-- Settles O24: a legal frame is accepted and an illegal one refused; the line is one byte longer than its content. -/
theorem encTxWritesTxLine : Obligations.EncTxWritesTxLine := by
  refine ⟨fun _ => rfl, fun s f hw hf => exec_encTx_of_legal hw hf, fun f hf => ?_,
    fun s f hw hf => exec_of_illegalFrame hw rfl hf⟩
  rw [encTxLine_eq, List.length_append, List.length_singleton, txContent_length]
  omega

/-- Every token id is accepted (R133). -/
theorem exec_encTok {s : State} (hw : s.cfg.wf = true) (k : TokenId) :
    exec (.encTok k) s = .next (s.deliver (some (.line (encTokLine s.cfg k))) []) :=
  exec_of_defect_none hw rfl

/-- The token ids are the bytes 0 to 3 (R86). -/
theorem tokenIdOf_of_three_lt {b : Byte} (h : 3#8 < b) : tokenIdOf b = none := by
  have h0 : b ≠ 0 := by bv_omega
  have h1 : b ≠ 1 := by bv_omega
  have h2 : b ≠ 2 := by bv_omega
  have h3 : b ≠ 3 := by bv_omega
  rw [tokenIdOf, if_neg h0, if_neg h1, if_neg h2, if_neg h3]

/-- An operand of ENC.TOK that names no token id is refused by the decoder (R133, log 12). -/
theorem decode_encTok_of_tokenIdOf_none (cfg : Cfg) {b : Byte} (h : tokenIdOf b = none) :
    decode cfg (.op 0x6 [b]) = .error .tokenId := by
  have hop : decodeOp 0x6 [b] = withToken [b] .encTok := rfl
  rw [decode, decodeRaw, hop, withToken, h]

/-- Settles O25: the four token ids by their codes and texts; a byte above 3 names none. -/
theorem encTokWritesTokenLine : Obligations.EncTokWritesTokenLine :=
  ⟨⟨rfl, rfl, rfl, rfl⟩, fun _ hw => ⟨exec_encTok hw _, exec_encTok hw _, exec_encTok hw _, exec_encTok hw _⟩,
    fun cfg _ hb => decode_encTok_of_tokenIdOf_none cfg (tokenIdOf_of_three_lt hb)⟩

end Sys2Proof.Machine

/-! SUPPORT. The statements on the line decoder: the hex field in its two modes, the envelope that DEC.LINE reads from a
content, that a decoded frame is legal, and the pushes, of one byte and of a whole line. -/

namespace Sys2Proof.Machine

/-! ## The hex field -/

theorem hexdec_of_strict {cfg : Cfg} (h : cfg.hexTolerant = false) (b : Bytes) : hexdec cfg b = hexdecStrict b := by
  rw [hexdec, h]
  rfl

theorem hexdec_of_tolerant {cfg : Cfg} (h : cfg.hexTolerant = true) (b : Bytes) :
    hexdec cfg b = .ok (hexdecTolerant b) := by
  rw [hexdec, if_pos h]

theorem hexdecStrict_odd {b : Bytes} (hodd : b.length % 2 = 1) : hexdecStrict b = .error .oddHex := if_pos hodd

theorem hexdecStrict_nonHex {b : Bytes} (heven : b.length % 2 = 0) {c : Byte} (hc : c ∈ b) (hbad : ishex c = false) :
    hexdecStrict b = .error .nonHex := by
  have hall : ¬ b.all ishex = true := fun h => by
    rw [List.all_eq_true.mp h c hc] at hbad
    cases hbad
  rw [hexdecStrict, if_neg (by omega), if_neg hall]

theorem hexdecStrict_ok {b : Bytes} (heven : b.length % 2 = 0) (hhex : ∀ c, c ∈ b → ishex c = true) :
    hexdecStrict b = .ok (pairUp hexval b) := by
  rw [hexdecStrict, if_neg (by omega), if_pos (List.all_eq_true.mpr hhex)]

/-- Two readings of nibbles that agree on the characters of a field read the same bytes from it. -/
theorem pairUp_congr {v w : Byte → Byte} {b : Bytes} (h : ∀ c, c ∈ b → v c = w c) : pairUp v b = pairUp w b := by
  induction b using pairUp.induct with
  | case1 => rfl
  | case2 a => rw [pairUp, pairUp, h a (by simp)]
  | case3 a c rest ih =>
    rw [pairUp, pairUp, h a (by simp), h c (by simp), ih fun d hd => h d (by simp [hd])]

/-- On hex digits the tolerant mode reads what the strict one does (R158). -/
theorem hexdecTolerant_of_ishex {b : Bytes} (hhex : ∀ c, c ∈ b → ishex c = true) :
    hexdecTolerant b = pairUp hexval b :=
  pairUp_congr fun c hc => if_pos (hhex c hc)

/-- Settles O31: the tests of the strict mode in their order, then the bytes that pairing the digits gives. -/
theorem strictHexDecodesPairs : Obligations.StrictHexDecodesPairs := by
  intro cfg b hmode
  rw [hexdec_of_strict hmode]
  refine ⟨hexdecStrict_odd, fun heven ⟨c, hc, hbad⟩ => hexdecStrict_nonHex heven hc hbad, fun heven hhex => ?_⟩
  refine ⟨pairUp hexval b, hexdecStrict_ok heven hhex, ?_, pairUp_get_pair hexval b⟩
  rw [pairUp_length]
  omega

/-- Settles O32: the bytes that pairing gives when the other characters read as zero; the modes agree on hex digits. -/
theorem tolerantHexNeverFails : Obligations.TolerantHexNeverFails := by
  intro cfg b hmode
  refine ⟨hexdecTolerant b, hexdec_of_tolerant hmode b, pairUp_length _ b, pairUp_get_pair _ b, pairUp_get_single _ b,
    fun heven hhex => ?_⟩
  rw [hexdec_of_strict rfl, hexdecStrict_ok heven hhex, hexdecTolerant_of_ishex hhex]

/-! ## Decoded frames -/

/-- A frame that an envelope carries is a legal one. -/
def frameLegalIn : Envelope → Prop
  | .rxFrame f | .txFrame f => legalFrame f
  | .blank | .token _ _ | .malformed _ => True

theorem frameLegalIn_decodeRx (cfg : Cfg) (r : Bytes) : frameLegalIn (decodeRx cfg r) := by
  unfold decodeRx
  split
  · trivial
  split
  · trivial
  split
  · trivial
  split
  · trivial
  split
  · trivial
  next b _ hlen hsize =>
    rw [frameMin, frameMax] at hsize
    show legalFrame b
    omega

theorem frameLegalIn_decodeTx (cfg : Cfg) (h : Bytes) : frameLegalIn (decodeTx cfg h) := by
  unfold decodeTx
  split
  · trivial
  split
  · trivial
  next b _ hsize =>
    rw [frameMin, frameMax] at hsize
    show legalFrame b
    omega

theorem frameLegalIn_decodeLine (cfg : Cfg) (t : Bytes) : frameLegalIn (decodeLine cfg t) := by
  unfold decodeLine
  cases lineKind t with
  | rx => exact frameLegalIn_decodeRx cfg (t.drop 3)
  | tx => exact frameLegalIn_decodeTx cfg (t.drop 3)
  | blank | ready | pong | ping | other => trivial

/-- Settles O33: only the two envelope lines carry a frame, and only one that has passed the size test. -/
theorem decodedFramesAreLegal : Obligations.DecodedFramesAreLegal := by
  intro cfg t f h
  have hlegal := frameLegalIn_decodeLine cfg t
  obtain h | h := h
  · rwa [h] at hlegal
  · rwa [h] at hlegal

/-! ## DEC.LINE -/

/-- An instruction with a defect is refused by its name (R13). -/
theorem exec_of_defect_some {s : State} {i : Instr} {d : Defect} (hw : s.cfg.wf = true) (hdef : i.defect s.cfg = some d) :
    exec i s = .refused (.operand d) := by
  rw [exec_eq_accept_performed, hdef, accept, if_pos hw]

theorem decLineDefect_tooLong {t : Bytes} (hlen : lineCap < t.length) : decLineDefect t = some .lineTooLong :=
  if_pos hlen

theorem decLineDefect_terminator {t : Bytes} (hlen : t.length ≤ lineCap) (ht : lineTerm ∈ t) :
    decLineDefect t = some .lineHasTerminator := by
  rw [decLineDefect, if_neg (Nat.not_lt.mpr hlen), contentDefect, if_pos (List.contains_iff_mem.mpr ht)]

theorem decLineDefect_none {t : Bytes} (hlen : t.length ≤ lineCap) (ht : lineTerm ∉ t) : decLineDefect t = none := by
  rw [decLineDefect, if_neg (Nat.not_lt.mpr hlen), contentDefect_none.mpr ht]

/-- A content that DEC.LINE accepts: its envelope is returned, and nothing is written (R150). -/
theorem exec_decLine {s : State} {t : Bytes} (hw : s.cfg.wf = true) (hlen : t.length ≤ lineCap) (ht : lineTerm ∉ t) :
    exec (.decLine t) s = .next (s.deliver (some (.envelope (decodeLine s.cfg t))) []) :=
  exec_of_defect_none hw (decLineDefect_none hlen ht)

/-- The content of an envelope line fits DEC.LINE when at most 260 bytes follow its `RX:` or `TX:` (R150). -/
theorem exec_decLine_envelope {s : State} {p r : Bytes} (hw : s.cfg.wf = true) (hp : p = pfxRx ∨ p = pfxTx)
    (hlen : r.length ≤ 260) (ht : lineTerm ∉ r) :
    exec (.decLine (p ++ r)) s = .next (s.deliver (some (.envelope (decodeLine s.cfg (p ++ r)))) []) := by
  obtain ⟨hplen, hpterm⟩ : p.length = 3 ∧ lineTerm ∉ p := by
    obtain rfl | rfl := hp <;> decide
  refine exec_decLine hw ?_ (List.not_mem_append hpterm ht)
  rw [List.length_append, lineCap]
  omega

/-- A content that none of the earlier tests of R77 takes. -/
theorem lineKind_other {t : Bytes} (hne : t ≠ []) (hrx : t.take 3 ≠ pfxRx) (htx : t.take 3 ≠ pfxTx)
    (hready : t ≠ tokReady) (hpong : t ≠ tokPong) (hping : t ≠ tokPing) : lineKind t = .other := by
  rw [lineKind, if_neg hne, if_neg hrx, if_neg htx, if_neg hready, if_neg hpong, if_neg hping]

/-- Settles O28: the four fixed contents are read by evaluation; any other is accepted or refused by its defect. -/
theorem decLineReadsBlankAndTokens : Obligations.DecLineReadsBlankAndTokens := by
  intro s hw
  refine ⟨exec_decLine hw (by decide) (by decide), exec_decLine hw (by decide) (by decide),
    exec_decLine hw (by decide) (by decide), exec_decLine hw (by decide) (by decide),
    fun t hlen ht hne hrx htx hready hpong hping => ?_,
    fun t hlen => exec_of_defect_some hw (decLineDefect_tooLong hlen),
    fun t hlen ht => exec_of_defect_some hw (decLineDefect_terminator hlen ht)⟩
  rw [exec_decLine hw hlen ht, decodeLine_of_other s.cfg (lineKind_other hne hrx htx hready hpong hping)]

/-- Settles O29: without a colon there is no separator; behind the first colon the tests of R152 follow in order. -/
theorem decLineReadsRxEnvelope : Obligations.DecLineReadsRxEnvelope := by
  intro s r hw hlen ht
  refine ⟨decodeRx s.cfg r, exec_decLine_envelope hw (.inl rfl) hlen ht, fun hsep => ?_, fun a b hr ha => ?_⟩
  · rw [decodeRx, splitColon_none r hsep]
  · rw [hr, decodeRx, splitColon_some a b ha]
    refine ⟨fun hn => by simp only [hn], fun n hn => ⟨fun x hx => by simp only [hn, hx], fun f hf => ?_⟩⟩
    simp only [hn, hf]
    refine ⟨fun hne => if_pos hne, fun heq hsize => ?_, fun heq hmin hmax => ?_⟩
    · rw [if_neg (not_not.mpr heq)]
      exact if_pos hsize
    · subst heq
      rw [if_neg (not_not.mpr rfl)]
      exact if_neg (not_badSize_of_legalFrame ⟨hmin, hmax⟩)

/-- Settles O30: the hex field, then the size (R153). -/
theorem decLineReadsTxEnvelope : Obligations.DecLineReadsTxEnvelope := by
  intro s b hw hlen ht
  refine ⟨decodeTx s.cfg b, exec_decLine_envelope hw (.inr rfl) hlen ht, fun x hx => ?_, fun f hf => ?_⟩
  · rw [decodeTx, hx]
  · rw [decodeTx, hf]
    exact ⟨fun hsize => if_pos hsize, fun hmin hmax => if_neg (not_badSize_of_legalFrame ⟨hmin, hmax⟩)⟩

/-! ## DEC.PUSH -/

theorem pushByte_content {c : Byte} (hc : c ≠ lineTerm) (s : State) : pushByte c s = pushContent c s := if_neg hc

theorem pushByte_term (s : State) : pushByte lineTerm s = pushTerm s := if_pos rfl

/-- Settles O34: a content byte is stored or discarded; at the terminator the live bytes of a legal state can be read. -/
theorem decPushStoresBytesAndReportsLines : Obligations.DecPushStoresBytesAndReportsLines := by
  refine ⟨fun _ => rfl, fun s c hw hc => ⟨fun hroom => ?_, fun hfull => ?_⟩, fun s t hi ⟨hlen, hlive⟩ => ?_⟩
  · have hpush := (pushByte_content hc s).trans (pushContent_room c s hroom)
    exact ⟨_, exec_decPush_ok hw hpush, writtenAt_writeBytes s.lb s.llen [c]⟩
  · have hpush := (pushByte_content hc s).trans (pushContent_full c s (Nat.not_lt.mpr hfull))
    exact exec_decPush_ok hw hpush
  · have hpush := (pushByte_term s).trans (pushTerm_of_live s t hi.llenLe hlen hlive)
    refine ⟨_, exec_decPush_ok hi.cfgWf hpush, fun hovf => if_pos hovf, fun hovf => ?_⟩
    rw [if_neg (Bool.eq_false_iff.mp hovf)]
    refine ⟨fun h => ?_, fun f h => ?_, fun f h => ?_, fun k x h => ?_, fun r h => ?_⟩ <;> rw [h, envelopeEvents]

/-! ## A whole line -/

/-- Settles O35: the content fits the line buffer, so the arrival of the line reports its envelope. -/
theorem pushesOfLineAgreeWithDecLine : Obligations.PushesOfLineAgreeWithDecLine :=
  fun _ _ hw hlen hovf hcap ht => execAll_decPushs_line hw hlen hovf ht hcap

/-- A clean decoder takes a content that is too long: the bytes that fit are stored from index 0, the line buffer is full and
`LOVF` set, no event (R171). -/
theorem pushBytes_overlong {s : State} {t : Bytes} (hlen : s.llen = 0) (hovf : s.lovf = false)
    (hlong : lineCap < t.length) (ht : lineTerm ∉ t) :
    pushBytes t s = .ok ({ s with
      lb := s.lb.writeBytes 0 (t.take lineCap), llen := lineCap, lovf := true }, []) := by
  have hfull : min t.length lineCap = lineCap := Nat.min_eq_right hlong.le
  rw [pushBytes_content t s ht (hlen ▸ Nat.zero_le _)]
  simp only [hlen, hovf, Nat.sub_zero, Nat.zero_add, hfull, hlong, decide_true, Bool.or_true]

/-- Settles O36: the content alone fills the buffer, and its terminator reports the bytes that were stored. -/
theorem overlongLineIsDroppedWhole : Obligations.OverlongLineIsDroppedWhole := by
  intro s t hw hlen hovf (hlong : lineCap < t.length) ht
  constructor
  · obtain ⟨ds, hall, hev⟩ := execAll_decPushs t hw (pushBytes_overlong hlen hovf hlong ht)
    exact ⟨_, ds, hall, hev, writtenAt_writeBytes s.lb 0 (t.take 263)⟩
  · have hline := pushBytes_line t s ht hlen hovf
    rw [if_pos hlong] at hline
    obtain ⟨ds, hall, hev⟩ := execAll_decPushs _ hw hline
    exact ⟨_, ds, hall, hev⟩

end Sys2Proof.Machine

/-! SUPPORT. The tests of the frame classifier in the words of R182 to R184, and its result by the first test that
succeeds (R181). -/

namespace Sys2Proof.Machine

theorem isGo_iff (f : Frame) : isGo f = true ↔ f.length = 15 ∧ f[13]? = some 0x47#8 ∧ f[14]? = some 0x4F#8 := by
  simp only [isGo, Bool.and_eq_true, decide_eq_true_eq, beq_iff_eq, and_assoc]
  rfl

theorem isShape_iff (f : Frame) (sh : Shape) :
    isShape f sh = true ↔ f.length = sh.len ∧ ∀ m, m ∈ sh.marks → f[m.1]? = some m.2 := by
  simp only [isShape, Bool.and_eq_true, decide_eq_true_eq, List.all_eq_true, beq_iff_eq]

theorem markOk_iff (cfg : Cfg) (f : Frame) :
    markOk cfg f = true ↔ ∀ k, cfg.markCheck = some k → f[k.off]? = some k.b0 ∧ f[k.off + 1]? = some k.b1 := by
  unfold markOk
  cases cfg.markCheck with
  | none => simp
  | some k => simp

theorem isFrag_iff (cfg : Cfg) (f : Frame) :
    isFrag cfg f = true ↔ cfg.hdrSize ≤ f.length ∧ f[cfg.typeOff]? = some cfg.typeVal ∧
      ∀ k, cfg.markCheck = some k → f[k.off]? = some k.b0 ∧ f[k.off + 1]? = some k.b1 := by
  rw [← markOk_iff]
  simp only [isFrag, Bool.and_eq_true, decide_eq_true_eq, beq_iff_eq, and_assoc]

theorem classify_of_isGo (cfg : Cfg) {f : Frame} (hgo : isGo f = true) : classify cfg f = .goKeepalive := if_pos hgo

/-- The first entry of `SHAPES` that a frame matches gives its class (R181, R183). -/
theorem classify_of_first_shape {cfg : Cfg} {f : Frame} (hgo : ¬ isGo f = true) {before after : List Shape} {sh : Shape}
    (hshapes : cfg.shapes = before ++ sh :: after) (hbefore : ∀ x, x ∈ before → ¬ isShape f x = true)
    (hsh : isShape f sh = true) : classify cfg f = .shape sh.cls := by
  have hfind : cfg.shapes.find? (isShape f) = some sh := by
    rw [hshapes, List.find?_append, List.find?_eq_none.mpr hbefore, Option.none_or, List.find?_cons_of_pos hsh]
  rw [classify, if_neg hgo, hfind]

/-- A frame of no exact shape is left to the fragment test (R181, R184). -/
theorem classify_of_no_shape {cfg : Cfg} {f : Frame} (hgo : ¬ isGo f = true)
    (hnone : ∀ x, x ∈ cfg.shapes → ¬ isShape f x = true) :
    classify cfg f = if isFrag cfg f then .fragment else .unrecognized := by
  rw [classify, if_neg hgo, List.find?_eq_none.mpr hnone]

/-- Settles O38: the class returned is `classify`'s, and it follows the first of the ordered tests that succeeds. -/
theorem fclClassTestsInOrder : Obligations.FclClassTestsInOrder := by
  refine ⟨fun _ => rfl, fun s f hw hf => ?_, fun s f hw hf => exec_of_illegalFrame hw rfl hf⟩
  refine ⟨classify s.cfg f, exec_of_legalFrame hw rfl hf, ?_⟩
  simp only [← isGo_iff, ← isShape_iff, ← isFrag_iff]
  refine ⟨classify_of_isGo s.cfg, fun hgo => ⟨fun _ _ _ => classify_of_first_shape hgo, fun hnone => ?_⟩⟩
  rw [classify_of_no_shape hgo hnone]
  exact ⟨fun hfrag => if_pos hfrag, fun hfrag => if_neg hfrag⟩

end Sys2Proof.Machine

/-! SUPPORT. The statements on the reassembler: RSM.FRAME by the class of its frame, the rows of the fragment step, COMPLETE
by its tests, a pinned canonical length along a run (R218), and the fragments of one message in their order (R217). -/

namespace Sys2Proof.Machine

/-! ## RSM.FRAME on a frame that passes the receive check -/

/-- A legal frame that passes the optional check is received by its class (R201, R203). -/
theorem exec_rsmFrame {s : State} {f : Frame} (hw : s.cfg.wf = true) (hf : legalFrame f) (hc : passesCheck s.cfg f) :
    exec (.rsmFrame f) s = finish (receiveClass (classify s.cfg f) f s) :=
  calc exec (.rsmFrame f) s = finish (receiveFrame f s) := exec_of_legalFrame hw rfl hf
    _ = finish (receiveClass (classify s.cfg f) f s) := congrArg finish (verified_of_pass hc _)

/-- What a frame that is no terminal fragment is answered with: the report of its class, and nothing for a fragment that is
stored (R202, R207). -/
def classEvents (k : FrameClass) (f : Frame) : List Event :=
  match k with
  | .goKeepalive => [.message .goKeepalive f]
  | .shape k => [.message (.shape k) f]
  | .fragment => []
  | .unrecognized => [.unrecognizedMessageShape f]

/-- A frame that is no fragment is reported, and the state kept, whatever `RST` is (R202). -/
theorem exec_rsmFrame_of_not_fragment {s : State} {f : Frame} {k : FrameClass} (hw : s.cfg.wf = true) (hf : legalFrame f)
    (hc : passesCheck s.cfg f) (hk : classify s.cfg f = k) (hne : k ≠ .fragment) :
    exec (.rsmFrame f) s = .next (s.deliver none (classEvents k f)) := by
  rw [exec_rsmFrame hw hf hc, hk]
  cases k with
  | fragment => exact absurd rfl hne
  | goKeepalive | shape | unrecognized => rfl

/-- Settles O39: none of the three classes is the fragment's. -/
theorem nonFragmentLeavesReassembler : Obligations.NonFragmentLeavesReassembler := by
  intro s f hw hf hc
  have hreport {k : FrameClass} (hne : k ≠ .fragment) (hk : classify s.cfg f = k) :=
    exec_rsmFrame_of_not_fragment hw hf hc hk hne
  exact ⟨hreport (by simp), fun _ => hreport (by simp), hreport (by simp)⟩

/-! ## The receive check -/

/-- A legal frame that fails the check is dropped (R203, R262). -/
theorem exec_rsmFrame_of_failed_check {s : State} {f : Frame} (hw : s.cfg.wf = true) (hf : legalFrame f)
    (hon : s.cfg.rxVerify = true) (hbad : chkVfy f = false) :
    exec (.rsmFrame f) s = .next (s.deliver none [.checksumMismatch f]) := by
  have hdrop : receiveFrame f s = raise s (.checksumMismatch f) := by
    rw [receiveFrame, verified, if_pos (by simp [hon, hbad])]
  calc exec (.rsmFrame f) s = finish (receiveFrame f s) := exec_of_legalFrame hw rfl hf
    _ = finish (raise s (.checksumMismatch f)) := congrArg finish hdrop

theorem complete_no_checksumMismatch {p : Bytes} {s u : State} {ev : List Event} (h : complete p s = .ok (u, ev))
    (g : Frame) : .checksumMismatch g ∉ ev := by
  obtain ⟨-, e⟩ | ⟨-, -, e⟩ | ⟨-, -, -, e⟩ | ⟨-, -, -, e⟩ := complete_cases p s
  all_goals
    rw [e] at h
    cases h
    simp

theorem fragStep_no_checksumMismatch {f : Frame} {s u : State} {ev : List Event} (h : fragStep f s = .ok (u, ev))
    (g : Frame) : .checksumMismatch g ∉ ev := by
  by_cases hr : s.rst = .resync
  · rw [fragStep_resync hr] at h
    cases h
    simp
  · rw [fragStep_accepting hr] at h
    obtain ⟨-, -, rfl⟩ | ⟨-, -, -, rfl⟩ | ⟨-, -, q, hq⟩ := acceptFragment_cases h
    · simp
    · simp
    · exact complete_no_checksumMismatch hq g

/-- With the check off the reassembler raises no `ChecksumMismatch` (R203). -/
theorem receiveFrame_no_checksumMismatch {f : Frame} {s u : State} {ev : List Event} (hoff : s.cfg.rxVerify = false)
    (h : receiveFrame f s = .ok (u, ev)) (g : Frame) : .checksumMismatch g ∉ ev := by
  obtain ⟨hon, -⟩ | ⟨-, -, rfl⟩ | ⟨_, -, -, rfl⟩ | ⟨-, hfrag⟩ | ⟨-, -, rfl⟩ := receiveFrame_cases h
  · rw [hoff] at hon
    cases hon
  · simp
  · simp
  · exact fragStep_no_checksumMismatch hfrag g
  · simp

/-- RSM.FRAME that goes on delivers the events of its statements (R201). -/
theorem exec_rsmFrame_next {f : Frame} {s t : State} (h : exec (.rsmFrame f) s = .next t) {d : Delivery}
    (hd : t.delivered = s.delivered ++ [d]) : ∃ u, receiveFrame f s = .ok (u, d.events) := by
  rw [exec_eq_accept_performed] at h
  obtain ⟨-, -, hp⟩ := accept_next h
  obtain ⟨u, ev, hr, rfl⟩ := finish_next hp
  have hu : u.delivered = s.delivered := by rw [receiveFrame_frame hr]
  rw [State.deliver_delivered, hu] at hd
  obtain rfl : ⟨none, ev⟩ = d := by simpa using hd
  exact ⟨u, hr⟩

/-- Settles O40: the check comes first, it is the only source of `ChecksumMismatch`, and the operand is checked before. -/
theorem failedCheckDropsFrame : Obligations.FailedCheckDropsFrame := by
  refine fun s f hw => ⟨exec_rsmFrame_of_failed_check hw, fun hoff t h d hd => ?_, exec_of_illegalFrame hw rfl⟩
  obtain ⟨u, hr⟩ := exec_rsmFrame_next h hd
  exact receiveFrame_no_checksumMismatch hoff hr

/-! ## The continuation flag and the payload -/

theorem isFrag_of_classify {cfg : Cfg} {f : Frame} (h : classify cfg f = .fragment) : isFrag cfg f = true := by
  unfold classify at h
  split at h
  · cases h
  · split at h
    · cases h
    · split at h
      · assumption
      · cases h

/-- A fragment has its whole header (R184). -/
theorem hdrSize_le_of_fragment {cfg : Cfg} {f : Frame} (h : classify cfg f = .fragment) : cfg.hdrSize ≤ f.length :=
  ((isFrag_iff cfg f).mp (isFrag_of_classify h)).1

/-- The constraints of R7 on the header that R204 rests on. -/
theorem header_of_cfgWf {c : Cfg} (h : c.wf = true) : 2 ≤ c.hdrSize ∧ c.contOff < c.hdrSize := by
  simp only [Cfg.wf, Bool.and_eq_true, decide_eq_true_eq] at h
  tauto

theorem moreFlag_of_getElem? {cfg : Cfg} {f : Frame} {b : Byte} (h : f[cfg.contOff]? = some b) :
    moreFlag cfg f = cfg.contMoreSet.getLsbD b.toNat := by
  simp only [moreFlag, h]

/-- Settles O42: the header of a fragment is there, and the flag byte lies inside it. -/
theorem continuationFlagReadsSet : Obligations.ContinuationFlagReadsSet := by
  intro cfg f hw hf hk
  have hhdr := hdrSize_le_of_fragment hk
  obtain ⟨hmin, hcont⟩ := header_of_cfgWf hw
  have hlen : (payload cfg f).length = f.length - cfg.hdrSize := List.length_drop
  have hb : f[cfg.contOff]? = some f[cfg.contOff] := List.getElem?_eq_getElem (by omega)
  exact ⟨⟨_, hb, by rw [moreFlag_of_getElem? hb]⟩, rfl, by omega, by omega⟩

/-! ## COMPLETE -/

/-- The detector fires: the length is pinned, and the payload is status-only (R212, R213). -/
theorem complete_of_detectorFires {p : Bytes} {s : State} (h : detectorFires s p = true) :
    complete p s = .ok ((s.setCsl p.length).setCslValid true, [.canonicalLengthPinned p.length, .statusOnly p]) := by
  obtain ⟨-, e⟩ | ⟨hn, -⟩ | ⟨hn, -⟩ | ⟨hn, -⟩ := complete_cases p s
  · exact e
  all_goals exact absurd h (by simp [hn])

/-- Where the detector does not fire, COMPLETE keeps the state and reports what its two tests say (R211). -/
theorem complete_of_not_detectorFires {p : Bytes} {s : State} (h : ¬ detectorFires s p = true) :
    complete p s = .ok (s, [
      if isStatusOnly s p then .statusOnly p
      else if inCombinedBracket s p && splitMarksOk s.cfg p (p.length - s.csl) then
        .combined (p.take (p.length - s.csl)) (p.drop (p.length - s.csl))
      else .unrecognizedMessageShape p]) := by
  obtain ⟨hf, -⟩ | ⟨-, hs, e⟩ | ⟨-, hs, hc, e⟩ | ⟨-, hs, hc, e⟩ := complete_cases p s
  · exact absurd hf h
  · simp [e, hs]
  · simp [e, hs, hc]
  · simp [e, hs, hc]

/-- Once a length is pinned the detector never fires again (R212). -/
theorem not_detectorFires_of_cslValid {s : State} (h : s.cslValid = true) (p : Bytes) : ¬ detectorFires s p = true := by
  rw [detectorFires_iff]
  simp [h]

/-- The whole combined test: the bracket, and the markers where the status part begins (R214). -/
theorem combinedTest_iff (s : State) (p : Bytes) :
    (inCombinedBracket s p && splitMarksOk s.cfg p (p.length - s.csl)) = true ↔
      s.cslValid = true ∧ s.cfg.combMin ≤ p.length ∧ p.length ≤ s.cfg.combMax ∧ s.csl < p.length ∧
        p[p.length - s.csl]? = some s.cfg.splitM0 ∧ p[p.length - s.csl + 1]? = some s.cfg.splitM1 := by
  simp only [Bool.and_eq_true, inCombinedBracket_iff, splitMarksOk_iff, and_assoc]

/-- A payload that neither test accepts is unrecognized (R215). -/
theorem complete_unrecognized {p : Bytes} {s : State} (hd : ¬ detectorFires s p = true)
    (hs : ¬ isStatusOnly s p = true)
    (hc : ¬ (inCombinedBracket s p && splitMarksOk s.cfg p (p.length - s.csl)) = true) :
    complete p s = .ok (s, [.unrecognizedMessageShape p]) := by
  rw [complete_of_not_detectorFires hd, if_neg hs, if_neg hc]

theorem complete_statusOnly {p : Bytes} {s : State} (hv : s.cslValid = true) (hlen : p.length = s.csl)
    (hmark : p[0]? = some s.cfg.statusMark) : complete p s = .ok (s, [.statusOnly p]) := by
  rw [complete_of_not_detectorFires (not_detectorFires_of_cslValid hv p),
    if_pos ((isStatusOnly_iff s p).mpr ⟨hv, hlen, hmark⟩)]

/-- A payload with the two markers `CSL` bytes before its end is split there (R214). It is longer than `CSL`, so it is not
status-only. -/
theorem complete_combined {a b : Bytes} {s : State} (hv : s.cslValid = true) (ha : a ≠ []) (hb : b.length = s.csl)
    (hmin : s.cfg.combMin ≤ (a ++ b).length) (hmax : (a ++ b).length ≤ s.cfg.combMax)
    (h0 : b[0]? = some s.cfg.splitM0) (h1 : b[1]? = some s.cfg.splitM1) :
    complete (a ++ b) s = .ok (s, [.combined a b]) := by
  have hpos := List.length_pos_iff.mpr ha
  have hsplit : (a ++ b).length - s.csl = a.length := by simp [hb]
  have hstatus : ¬ isStatusOnly s (a ++ b) = true := by
    rw [isStatusOnly_iff, List.length_append]
    omega
  have hcombined : (inCombinedBracket s (a ++ b) && splitMarksOk s.cfg (a ++ b) ((a ++ b).length - s.csl)) = true := by
    rw [combinedTest_iff, hsplit]
    refine ⟨hv, hmin, hmax, by rw [List.length_append]; omega, ?_, ?_⟩
    · rw [List.getElem?_append_right (Nat.le_refl _), Nat.sub_self, h0]
    · rw [List.getElem?_append_right (Nat.le_add_right _ 1), Nat.add_sub_cancel_left, h1]
  rw [complete_of_not_detectorFires (not_detectorFires_of_cslValid hv _), if_neg hstatus, if_pos hcombined, hsplit,
    List.take_left, List.drop_left]

/-- Settles O43. Nothing is status-only or combined before a length is pinned, and the detector is silent after it. -/
theorem completedPayloadIsClassified : Obligations.CompletedPayloadIsClassified := by
  refine fun s p => ⟨fun hv hmin hmax hmark => ?_, fun hv hno => ?_, complete_statusOnly, ?_, fun hv hs hc => ?_⟩
  · exact complete_of_detectorFires ((detectorFires_iff s p).mpr ⟨hv, hmin, hmax, hmark⟩)
  · refine complete_unrecognized (fun hd => hno ((detectorFires_iff s p).mp hd).2) (fun hs => ?_) (fun hc => ?_)
    · exact absurd ((isStatusOnly_iff s p).mp hs).1 (by simp [hv])
    · exact absurd ((combinedTest_iff s p).mp hc).1 (by simp [hv])
  · rintro a b hv rfl ha hb hmin hmax h0 h1
    exact complete_combined hv ha hb hmin hmax h0 h1
  · exact complete_unrecognized (not_detectorFires_of_cslValid hv p)
      (fun h => hs ((isStatusOnly_iff s p).mp h).2) (fun h => hc ((combinedTest_iff s p).mp h).2)

/-! ## The fragment step -/

section
variable {s : State} {f : Frame} (hw : s.cfg.wf = true) (hf : legalFrame f) (hc : passesCheck s.cfg f)
  (hk : classify s.cfg f = .fragment)
include hw hf hc hk

/-- Outside `RESYNC` a fragment is accepted (R205). -/
theorem exec_fragment_accepting (hr : s.rst ≠ .resync) :
    exec (.rsmFrame f) s = finish (acceptFragment (moreFlag s.cfg f) (payload s.cfg f) s) := by
  rw [exec_rsmFrame hw hf hc, hk, receiveClass, fragStep_accepting hr]

/-- In `RESYNC` a fragment is discarded, and a terminal one ends the oversized message (R210). -/
theorem exec_fragment_resync {more : Bool} (hr : s.rst = .resync) (hm : moreFlag s.cfg f = more) :
    exec (.rsmFrame f) s = .next ((if more then s else s.setRst .idle).deliver none []) := by
  rw [exec_rsmFrame hw hf hc, hk, receiveClass, fragStep_resync hr, hm, finish_ok]

/-- A fragment that does not fit discards the message (R208). -/
theorem exec_fragment_overflow {more : Bool} (hr : s.rst ≠ .resync) (hm : moreFlag s.cfg f = more)
    (hfull : s.cfg.bufCap < s.rlen + (payload s.cfg f).length) :
    exec (.rsmFrame f) s = .next (((s.setRlen 0).setRst (if more then .resync else .idle)).deliver none
      [.reassemblyOverflow s.rlen (payload s.cfg f).length]) := by
  rw [exec_fragment_accepting hw hf hc hk hr, hm, acceptFragment_overflow _ _ s hfull, finish_ok]

/-- A fragment that fits and is not the last is appended (R207). -/
theorem exec_fragment_more (hr : s.rst ≠ .resync) (hm : moreFlag s.cfg f = true)
    (hfit : s.rlen + (payload s.cfg f).length ≤ s.cfg.bufCap) :
    exec (.rsmFrame f) s = .next ((((s.setRb (s.rb.writeBytes s.rlen (payload s.cfg f))).setRlen
      (s.rlen + (payload s.cfg f).length)).setRst .accum).deliver none []) := by
  rw [exec_fragment_accepting hw hf hc hk hr, hm, acceptFragment_more _ s hfit, finish_ok]

/-- A terminal fragment that fits completes the live bytes and its payload (R208). -/
theorem exec_fragment_last (hr : s.rst ≠ .resync) (hm : moreFlag s.cfg f = false)
    (hfit : s.rlen + (payload s.cfg f).length ≤ s.cfg.bufCap) {l : Bytes} (hl : liveBytes s.rb s.rlen l) :
    exec (.rsmFrame f) s = finish (complete (l ++ payload s.cfg f)
      (((s.setRb (s.rb.writeBytes s.rlen (payload s.cfg f))).setRlen 0).setRst .idle)) := by
  rw [exec_fragment_accepting hw hf hc hk hr, hm, acceptFragment_last _ l s hfit hl.1 hl.2]

end

/-- Settles O41: the two rows that store write the payload behind the live bytes; the other four are the lemmas above. -/
theorem fragmentTransitionTable : Obligations.FragmentTransitionTable := by
  rintro s f p hi hf hc hk rfl
  have hw := hi.cfgWf
  refine ⟨fun hr hm hfit => ?_, fun hr hm hfit l hl => ?_, exec_fragment_overflow hw hf hc hk,
    exec_fragment_overflow hw hf hc hk, exec_fragment_resync hw hf hc hk, exec_fragment_resync hw hf hc hk⟩
  · exact ⟨_, exec_fragment_more hw hf hc hk hr hm hfit, writtenAt_writeBytes _ _ _⟩
  · exact ⟨_, exec_fragment_last hw hf hc hk hr hm hfit hl, writtenAt_writeBytes _ _ _⟩

/-! ## A pinned canonical length along a run -/

/-- The canonical length is pinned at `n` (R30, R31). -/
def pinnedAt (n : Nat) (s : State) : Prop := s.cslValid = true ∧ s.csl = n

theorem complete_pinnedAt {n : Nat} {p : Bytes} {s u : State} {ev : List Event} (hs : pinnedAt n s)
    (h : complete p s = .ok (u, ev)) : pinnedAt n u := by
  rw [complete_of_not_detectorFires (not_detectorFires_of_cslValid hs.1 p)] at h
  cases h
  exact hs

theorem fragStep_pinnedAt {n : Nat} {f : Frame} {s u : State} {ev : List Event} (hs : pinnedAt n s)
    (h : fragStep f s = .ok (u, ev)) : pinnedAt n u := by
  by_cases hr : s.rst = .resync
  · rw [fragStep_resync hr] at h
    cases h
    split <;> exact hs
  · rw [fragStep_accepting hr] at h
    obtain ⟨-, rfl, -⟩ | ⟨-, -, rfl, -⟩ | ⟨-, -, q, hq⟩ := acceptFragment_cases h
    · exact hs
    · exact hs
    · have hcompleting : pinnedAt n (((s.setRb (s.rb.writeBytes s.rlen (payload s.cfg f))).setRlen 0).setRst .idle) := hs
      exact complete_pinnedAt hcompleting hq

theorem receiveFrame_pinnedAt {n : Nat} {f : Frame} {s u : State} {ev : List Event} (hs : pinnedAt n s)
    (h : receiveFrame f s = .ok (u, ev)) : pinnedAt n u := by
  obtain ⟨-, -, rfl, -⟩ | ⟨-, rfl, -⟩ | ⟨_, -, rfl, -⟩ | ⟨-, hf⟩ | ⟨-, rfl, -⟩ := receiveFrame_cases h
  case inr.inr.inr.inl => exact fragStep_pinnedAt hs hf
  all_goals exact hs

theorem pinnedAt_of_sameReassembler {n : Nat} {s u : State} (hs : pinnedAt n s) (h : sameReassembler s u) :
    pinnedAt n u := by
  obtain ⟨-, -, -, hcsl, hvalid⟩ := h
  exact ⟨hvalid.trans hs.1, hcsl.trans hs.2⟩

theorem pipeByte_pinnedAt {n : Nat} {c : Byte} {s u : State} {ev : List Event} (hs : pinnedAt n s)
    (h : pipeByte c s = .ok (u, ev)) : pinnedAt n u := by
  obtain ⟨w, ev', hw, hcase⟩ := pipeByte_cases h
  have hpin : pinnedAt n w := pinnedAt_of_sameReassembler hs (pushByte_sameReassembler hw)
  obtain ⟨rfl, -⟩ | ⟨-, f, -, hr⟩ := hcase
  · exact hpin
  · exact receiveFrame_pinnedAt hpin hr

/-- Every instruction but the two that clear it leaves a pinned canonical length as it is (R218). -/
theorem Performs.pinnedAt {n : Nat} {i : Instr} {s u : State} {ev : List Event} (h : Performs s i u ev)
    (hs : pinnedAt n s) (hnew : i ≠ .sysNewsession) (hreset : i ≠ .sysReset) : pinnedAt n u := by
  cases h with
  | value => exact hs
  | push h => exact pinnedAt_of_sameReassembler hs (pushByte_sameReassembler h)
  | pipe h => exact pipeByte_pinnedAt hs h
  | line _ h => exact pinnedAt_of_sameReassembler hs (pushBytes_sameReassembler h)
  | receive _ h => exact receiveFrame_pinnedAt hs h
  | report => exact hs
  | newSession => exact absurd rfl hnew
  | hardReset => exact absurd rfl hreset

theorem execAll_pinnedAt {n : Nat} {is : List Instr} {s t : State} (hnew : .sysNewsession ∉ is)
    (hreset : .sysReset ∉ is) (h : execAll is s = .next t) (hs : pinnedAt n s) : pinnedAt n t := by
  induction is generalizing s with
  | nil =>
    cases h
    exact hs
  | cons i is ih =>
    obtain ⟨w, hi, hrest⟩ := execAll_cons_next h
    obtain ⟨u, v, ev, rfl, hp⟩ := exec_next hi
    have hu : pinnedAt n u :=
      hp.pinnedAt hs (List.ne_of_not_mem_cons hnew).symm (List.ne_of_not_mem_cons hreset).symm
    exact ih (List.not_mem_of_not_mem_cons hnew) (List.not_mem_of_not_mem_cons hreset) hrest hu

/-- Settles O45: being pinned at the present length is an invariant of the run. -/
theorem canonicalLengthStaysPinned : Obligations.CanonicalLengthStaysPinned :=
  fun _ _ _ hnew hreset h hv => execAll_pinnedAt hnew hreset h ⟨hv, rfl⟩

/-! ## The fragments of one message -/

/-- The bytes that the fragments among some frames carry, in order (R204). -/
def fragmentBytes (cfg : Cfg) (fs : List Frame) : Bytes :=
  (fs.filter fun f => classify cfg f = .fragment).flatMap (payload cfg)

@[simp] theorem fragmentBytes_append (cfg : Cfg) (fs gs : List Frame) :
    fragmentBytes cfg (fs ++ gs) = fragmentBytes cfg fs ++ fragmentBytes cfg gs := by
  simp [fragmentBytes]

theorem fragmentBytes_of_fragment {cfg : Cfg} {f : Frame} (h : classify cfg f = .fragment) :
    fragmentBytes cfg [f] = payload cfg f := by
  simp [fragmentBytes, h]

theorem fragmentBytes_of_not_fragment {cfg : Cfg} {f : Frame} (h : classify cfg f ≠ .fragment) :
    fragmentBytes cfg [f] = [] := by
  simp [fragmentBytes, h]

/-- Bytes written behind the live ones become live (R12, R53). -/
theorem liveBytes_writeBytes {m : Memory} {n : Nat} {l : Bytes} (h : liveBytes m n l) (p : Bytes) :
    liveBytes (m.writeBytes n p) (n + p.length) (l ++ p) := by
  obtain ⟨hlen, hlive⟩ := h
  refine ⟨by rw [List.length_append, hlen], fun i hi => ?_⟩
  rw [Memory.read_writeBytes]
  by_cases hin : n ≤ i
  · rw [if_pos ⟨hin, hi⟩, List.getElem?_append_right (by omega), hlen]
  · rw [if_neg (by omega), hlive i (by omega), List.getElem?_append_left (by omega)]

/-- A message is being collected under the configuration `cfg`, and its fragments so far have brought `l` (R26, R29). -/
structure Collecting (cfg : Cfg) (l : Bytes) (s : State) : Prop where
  cfg_eq    : s.cfg = cfg
  accepting : s.rst ≠ .resync
  live      : liveBytes s.rb s.rlen l

/-- A legal state in `IDLE` has collected nothing. -/
theorem Collecting.of_idle {s : State} (hi : s.Inv) (hr : s.rst = .idle) : Collecting s.cfg [] s where
  cfg_eq := rfl
  accepting := by simp [hr]
  live := ⟨(hi.idleEmpty hr).symm, by simp [hi.idleEmpty hr]⟩

/-- A frame that does not end the message: a fragment with the continuation flag, or no fragment (R217). -/
def continues (cfg : Cfg) (f : Frame) : Prop :=
  legalFrame f ∧ passesCheck cfg f ∧ (classify cfg f = .fragment → moreFlag cfg f = true)

/-- A frame that does not end the message adds what it carries, where that fits, and is answered by its class. -/
theorem Collecting.exec_rsmFrame {cfg : Cfg} {l : Bytes} {s : State} {f : Frame} (hcol : Collecting cfg l s)
    (hw : cfg.wf = true) (hf : continues cfg f) (hfit : (l ++ fragmentBytes cfg [f]).length ≤ cfg.bufCap) :
    ∃ u, exec (.rsmFrame f) s = .next u ∧ u.delivered = s.delivered ++ [⟨none, classEvents (classify cfg f) f⟩] ∧
      Collecting cfg (l ++ fragmentBytes cfg [f]) u := by
  obtain ⟨rfl, hacc, hlive⟩ := hcol
  obtain ⟨hlegal, hcheck, hmore⟩ := hf
  by_cases hk : classify s.cfg f = .fragment
  · rw [fragmentBytes_of_fragment hk, List.length_append, hlive.1] at hfit
    rw [fragmentBytes_of_fragment hk]
    exact ⟨_, exec_fragment_more hw hlegal hcheck hk hacc (hmore hk) hfit, by rw [hk]; rfl, rfl, by simp,
      liveBytes_writeBytes hlive _⟩
  · rw [fragmentBytes_of_not_fragment hk, List.append_nil]
    exact ⟨_, exec_rsmFrame_of_not_fragment hw hlegal hcheck rfl hk, rfl, rfl, hacc, hlive⟩

/-- Frames that do not end the message are collected in their order, each answered by its class (R217). -/
theorem Collecting.execAll_rsmFrames {cfg : Cfg} {l : Bytes} {s : State} {fs : List Frame} (hcol : Collecting cfg l s)
    (hw : cfg.wf = true) (hfs : ∀ f, f ∈ fs → continues cfg f)
    (hfit : (l ++ fragmentBytes cfg fs).length ≤ cfg.bufCap) :
    ∃ t, execAll (rsmFrames fs) s = .next t ∧
      t.delivered = s.delivered ++ fs.map (fun f => ⟨none, classEvents (classify cfg f) f⟩) ∧
      Collecting cfg (l ++ fragmentBytes cfg fs) t := by
  induction fs generalizing s l with
  | nil => exact ⟨s, rfl, (List.append_nil _).symm, by simpa [fragmentBytes] using hcol⟩
  | cons f fs ih =>
    have hbytes : l ++ fragmentBytes cfg (f :: fs) = (l ++ fragmentBytes cfg [f]) ++ fragmentBytes cfg fs := by
      rw [List.append_assoc, ← fragmentBytes_append, List.singleton_append]
    rw [hbytes] at hfit ⊢
    have hfit₁ : (l ++ fragmentBytes cfg [f]).length ≤ cfg.bufCap := by
      rw [List.length_append (bs := fragmentBytes cfg fs)] at hfit
      omega
    obtain ⟨u, hu, hdone, hcol'⟩ := hcol.exec_rsmFrame hw (hfs f List.mem_cons_self) hfit₁
    obtain ⟨t, ht, hothers, hcol''⟩ := ih hcol' (fun g hg => hfs g (List.mem_cons_of_mem f hg)) hfit
    refine ⟨t, ?_, by rw [hothers, hdone, List.append_assoc]; rfl, hcol''⟩
    simp only [rsmFrames, List.map_cons, execAll, hu]
    exact ht

/-- COMPLETE answers, and leaves the state register and the length of the message alone (R211). -/
theorem complete_keeps_message (p : Bytes) (s : State) :
    ∃ u ev, complete p s = .ok (u, ev) ∧ u.rst = s.rst ∧ u.rlen = s.rlen := by
  obtain ⟨u, ev, h, rfl | ⟨-, rfl⟩⟩ := complete_ok p s
  · exact ⟨_, ev, h, rfl, rfl⟩
  · exact ⟨_, ev, h, rfl, rfl⟩

/-- The terminal fragment completes what has been collected and its own payload, where that fits (R208, R217). -/
theorem Collecting.exec_terminal {cfg : Cfg} {l : Bytes} {s : State} {f : Frame} (hcol : Collecting cfg l s)
    (hw : cfg.wf = true) (hf : legalFrame f) (hc : passesCheck cfg f) (hk : classify cfg f = .fragment)
    (hm : moreFlag cfg f = false) (hfit : (l ++ payload cfg f).length ≤ cfg.bufCap) :
    ∃ m ev u, complete (l ++ payload cfg f) { s with rb := m, rlen := 0, rst := .idle } = .ok (u, ev) ∧
      exec (.rsmFrame f) s = .next (u.deliver none ev) ∧ u.rst = .idle ∧ u.rlen = 0 := by
  obtain ⟨rfl, hacc, hlive⟩ := hcol
  rw [List.length_append, hlive.1] at hfit
  obtain ⟨u, ev, h, hrst, hrlen⟩ := complete_keeps_message (l ++ payload s.cfg f)
    (((s.setRb (s.rb.writeBytes s.rlen (payload s.cfg f))).setRlen 0).setRst .idle)
  refine ⟨_, ev, u, h, ?_, hrst, hrlen⟩
  rw [exec_fragment_last hw hf hc hk hacc hm hfit hlive, h, finish_ok]

/-- Settles O44: the earlier frames are collected by induction, and the terminal fragment completes what they brought. -/
theorem fragmentsReassembleInOrder : Obligations.FragmentsReassembleInOrder := by
  intro s fs last hi hidle hfs hlegal hcheck hk hlast p hp hfit
  obtain rfl : p = [] ++ fragmentBytes s.cfg fs ++ payload s.cfg last := by
    rw [hp, List.flatMap_append, List.flatMap_singleton]
    rfl
  have hfit' : ([] ++ fragmentBytes s.cfg fs).length ≤ s.cfg.bufCap := by
    rw [List.length_append] at hfit
    omega
  obtain ⟨t, hall, hdone, hcol⟩ := (Collecting.of_idle hi hidle).execAll_rsmFrames hi.cfgWf hfs hfit'
  obtain ⟨m, ev, u, hlater⟩ := hcol.exec_terminal hi.cfgWf hlegal hcheck hk hlast hfit
  exact ⟨t, m, ev, u, hall, hdone, hlater⟩

end Sys2Proof.Machine

/-! SUPPORT. The system operations: the pipeline hands a received frame to the reassembler (R240), the two resets by their
writes (R245, R248), and the status by its tuple (R250). -/

namespace Sys2Proof.Machine

/-! ## The pipeline -/

/-- `EnvRx` is what an RX line is reported as, and nothing else is (R170). -/
theorem eq_rxFrame_of_envelopeEvents {t : Bytes} {e : Envelope} {f : Frame} (h : envelopeEvents t e = [.envRx f]) :
    e = .rxFrame f := by
  cases e with
  | rxFrame g => cases h; rfl
  | blank | txFrame | token | malformed => cases h

/-- A frame that DEC.PUSH reports is a legal one, so the inner RSM.FRAME is never refused (R240, R152). -/
theorem legalFrame_of_pushByte {c : Byte} {s u : State} {f : Frame} (h : pushByte c s = .ok (u, [.envRx f])) :
    legalFrame f := by
  by_cases hc : c = lineTerm
  · rw [hc, pushByte_term] at h
    obtain ⟨-, t, hev⟩ := pushTerm_cases h
    split at hev
    · cases hev
    · exact decodedFramesAreLegal s.cfg t f (.inl (eq_rxFrame_of_envelopeEvents hev.symm))
  · rw [pushByte_content hc] at h
    cases (pushContent_cases h).1

/-- Every event but a received frame passes through (R240). -/
theorem pipeEvent_of_ne_envRx {e : Event} (h : ∀ f, e ≠ .envRx f) (s : State) : pipeEvent e s = emit s [e] := by
  cases e with
  | envRx f => exact absurd rfl (h f)
  | _ => rfl

/-- A single event is what the loop of R240 makes of it. -/
theorem pipeEvents_singleton (e : Event) (s : State) : pipeEvents [e] s = pipeEvent e s := by
  simp only [pipeEvents]
  cases pipeEvent e s <;> simp [emit]

/-- A received frame goes to the reassembler in the state the push left, and its `EnvRx` is consumed. -/
theorem pipeByte_of_envRx {c : Byte} {s u : State} {f : Frame} (h : pushByte c s = .ok (u, [.envRx f])) :
    pipeByte c s = receiveFrame f u := by
  simp only [pipeByte, h]
  exact pipeEvents_singleton (.envRx f) u

/-- Whatever else the push reports is what the pipeline reports. -/
theorem pipeByte_of_ne_envRx {c : Byte} {s u : State} {ev : List Event} (h : pushByte c s = .ok (u, ev))
    (hne : ∀ f, ev ≠ [.envRx f]) : pipeByte c s = .ok (u, ev) := by
  simp only [pipeByte, h]
  obtain rfl | ⟨-, e, rfl⟩ := pushByte_events h
  · rfl
  · rw [pipeEvents_singleton]
    exact pipeEvent_of_ne_envRx (fun f he => hne f (by rw [he])) u

/-- Settles O49: a push from a legal state answers, in a legal state; a frame it reports is legal, so RSM.FRAME accepts it. -/
theorem pipePushFeedsReassembler : Obligations.PipePushFeedsReassembler := by
  intro s c hi
  have hpipe : exec (.pipePush c) s = finish (pipeByte c s) := exec_of_defect_none hi.cfgWf rfl
  obtain ⟨u, ev, hpush, hu⟩ := pushByte_inv c hi
  refine ⟨rfl, u, ev, exec_decPush_ok hi.cfgWf hpush, ?_, fun hne => ?_, ?_⟩
  · rintro f rfl
    have hrsm : exec (.rsmFrame f) u = finish (receiveFrame f u) :=
      exec_of_legalFrame hu.cfgWf rfl (legalFrame_of_pushByte hpush)
    rw [hpipe, pipeByte_of_envRx hpush, hrsm]
  · rw [hpipe, pipeByte_of_ne_envRx hpush hne, finish_ok]
  · obtain ⟨t, ht, -⟩ := finish_completes (pipeByte_inv c hi)
    exact ⟨t, hpipe.trans ht⟩

/-! ## The two resets and the status -/

theorem State.newSession_eq (s : State) :
    s.newSession = { s with rlen := 0, rst := .idle, csl := 0, cslValid := false } := rfl

theorem State.hardReset_eq (s : State) :
    s.hardReset = { s with llen := 0, lovf := false, rlen := 0, rst := .idle, csl := 0, cslValid := false } := rfl

theorem exec_sysNewsession {s : State} (hw : s.cfg.wf = true) :
    exec .sysNewsession s = .next (s.newSession.deliver none []) := exec_of_defect_none hw rfl

theorem exec_sysReset {s : State} (hw : s.cfg.wf = true) :
    exec .sysReset s = .next (s.hardReset.deliver none []) := exec_of_defect_none hw rfl

/-- Asserting the reset input makes the writes of SYS.RESET (R290), beside the port and the level of the input. -/
theorem step_of_reset_asserted {s : State} {rest : List Input} (h : s.port = .resetLine true :: rest) :
    step s = .next { s.hardReset with port := rest, resetHeld := true } := step_of_port_cons h

/-- Settles O50, by the four writes. -/
theorem newSessionForgetsMessageAndLength : Obligations.NewSessionForgetsMessageAndLength := by
  refine ⟨rfl, fun s hw => ?_⟩
  rw [exec_sysNewsession hw, State.newSession_eq]

/-- Settles O51: the operation and the input make the same six writes. -/
theorem resetClearsAllRegisters : Obligations.ResetClearsAllRegisters := by
  refine ⟨rfl, fun s hw => ?_, fun s rest hport => ⟨_, step_of_reset_asserted hport, ?_⟩⟩
  · rw [exec_sysReset hw, State.hardReset_eq]
  · rw [State.hardReset_eq]

/-- Settles O52: an accepted SYS.STATUS returns the tuple. -/
theorem statusReturnsRegisters : Obligations.StatusReturnsRegisters :=
  ⟨rfl, fun _ hw => exec_of_defect_none hw rfl⟩

end Sys2Proof.Machine

/-! SUPPORT. The error events of one operation (R271, R276). -/

namespace Sys2Proof.Machine

/-- Neither the pin of a length nor the status behind it is an error (R61, R85), so an error in such an event list is its
only event. -/
theorem singleOrPinStatus.eq_singleton_of_error {ev : List Event} (h : singleOrPinStatus ev) {e : Event} (he : e ∈ ev)
    (herr : isError e = true) : ev = [e] := by
  obtain rfl | ⟨a, rfl⟩ | ⟨p, rfl⟩ := h
  · cases he
  · rw [List.mem_singleton.mp he]
  · obtain rfl | rfl : e = .canonicalLengthPinned p.length ∨ e = .statusOnly p := by simpa using he
    · cases herr
    · cases herr

/-- Where an error event stands alone there is at most one. -/
theorem errors_length_le_one_of_alone {ev : List Event} (h : ∀ e, e ∈ ev → isError e = true → ev = [e]) :
    (ev.filter isError).length ≤ 1 := by
  cases hf : ev.filter isError with
  | nil => exact Nat.zero_le 1
  | cons e es =>
    obtain ⟨hmem, herr⟩ := List.mem_filter.mp (hf ▸ List.mem_cons_self : e ∈ ev.filter isError)
    calc (e :: es).length = (ev.filter isError).length := by rw [hf]
      _ ≤ ev.length := List.length_filter_le isError ev
      _ = 1 := by rw [h e hmem herr, List.length_singleton]

/-- Settles O47: of the three forms of an event list only the single event can be an error. -/
theorem atMostOneErrorPerOperation : Obligations.AtMostOneErrorPerOperation := by
  intro i s t h d hd
  have halone : ∀ e, e ∈ d.events → isError e = true → d.events = [e] := fun _ he herr =>
    (exec_events_singleOrPinStatus h hd).eq_singleton_of_error he herr
  exact ⟨errors_length_le_one_of_alone halone, halone⟩

end Sys2Proof.Machine

/-! SUPPORT. The reset input and the configuration input (R290, R292, R297): what a step takes and what it refuses. -/

namespace Sys2Proof.Machine

section
variable {s : State} {rest : List Input}

/-- No transaction is accepted while reset is asserted (R290). -/
theorem step_of_present_held {x : Transaction} (hp : s.port = .present x :: rest) (hr : s.resetHeld = true) :
    step s = .refused .heldInReset :=
  (step_of_port_cons hp).trans (if_pos hr)

/-- Releasing the reset input, under a well-formed configuration (R9, R297). -/
theorem step_of_reset_released (hp : s.port = .resetLine false :: rest) (hw : s.cfg.wf = true) :
    step s = .next { s with port := rest, resetHeld := false } :=
  (step_of_port_cons hp).trans (if_pos hw)

theorem step_of_reset_released_illFormed (hp : s.port = .resetLine false :: rest) (hw : s.cfg.wf = false) :
    step s = .refused .illFormedConfig := by
  rw [step_of_port_cons hp]
  simp [takeInput, takeResetLine, hw]

/-- A well-formed configuration supplied while reset is asserted is taken, beside the writes of SYS.RESET (R292, log 10). -/
theorem step_of_cfg_supplied {c : Cfg} (hp : s.port = .supplyCfg c :: rest) (hr : s.resetHeld = true)
    (hw : c.wf = true) : step s = .next { s.hardReset with port := rest, cfg := c, rb := [] } :=
  (step_of_port_cons hp).trans ((if_pos hr).trans (if_pos hw))

theorem step_of_cfg_supplied_illFormed {c : Cfg} (hp : s.port = .supplyCfg c :: rest) (hr : s.resetHeld = true)
    (hw : c.wf = false) : step s = .refused .illFormedConfig := by
  rw [step_of_port_cons hp]
  simp [takeInput, takeCfg, hr, hw]

theorem step_of_cfg_outside_reset {c : Cfg} (hp : s.port = .supplyCfg c :: rest) (hr : s.resetHeld = false) :
    step s = .refused .configOutsideReset := by
  rw [step_of_port_cons hp]
  simp [takeInput, takeCfg, hr]

end

/-- Only a configuration that is supplied changes the configuration: a presented operation keeps it (R36), and so do the idle
step and the reset input. -/
theorem step_cfg_eq_or_supplied {s t : State} (h : step s = .next t) :
    t.cfg = s.cfg ∨
      s.resetHeld = true ∧ t.resetHeld = true ∧ t.cfg.wf = true ∧ ∃ rest, s.port = .supplyCfg t.cfg :: rest := by
  obtain ⟨-, rfl⟩ | ⟨_, _, i, -, -, -, hexec⟩ | ⟨_, -, rfl⟩ | ⟨_, -, -, rfl⟩ | ⟨rest, c, hport, hheld, hwf, rfl⟩ :=
    step_cases h
  · exact .inl rfl
  · exact .inl (noOperationWritesInputs i _ t hexec).1
  · exact .inl rfl
  · exact .inl rfl
  · exact .inr ⟨hheld, hheld, hwf, rest, hport⟩

/-- Settles O8: the only step that writes the configuration takes one supplied in reset; any other supply is refused. -/
theorem configurationChangesOnlyInReset : Obligations.ConfigurationChangesOnlyInReset := by
  refine ⟨fun s t h hne => (step_cfg_eq_or_supplied h).resolve_left hne, fun s c rest hport =>
    ⟨fun hr hw => ?_, step_of_cfg_supplied_illFormed hport, step_of_cfg_outside_reset hport⟩⟩
  rw [step_of_cfg_supplied hport hr hw, State.hardReset_eq]

theorem State.resetWith_resetValues (c : Cfg) : (State.resetWith c).resetValues := ⟨rfl, rfl, rfl, rfl, rfl, rfl⟩

/-- While reset is held no operation is performed, so a step idles, asserts the input again, takes a configuration with the
writes of SYS.RESET, or releases the input, after which nothing is claimed. -/
theorem step_keeps_heldHasResetValues {s t : State} (hs : s.heldHasResetValues) (h : step s = .next t) :
    t.heldHasResetValues := by
  intro hheld
  obtain ⟨-, rfl⟩ | ⟨_, _, i, -, hfree, -, hexec⟩ | ⟨_, -, rfl⟩ | ⟨_, -, -, rfl⟩ | ⟨_, _, -, -, -, rfl⟩ :=
    step_cases h
  · exact hs hheld
  · obtain ⟨-, hreset, -⟩ := noOperationWritesInputs i _ t hexec
    have hreleased : t.resetHeld = false := hreset.trans hfree
    exact absurd hheld (ne_true_of_eq_false hreleased)
  · exact s.hardReset_resetValues
  · cases hheld
  · exact s.hardReset_resetValues

/-- Settles O55: the reset state and the assertion of the input set the six registers, and every step keeps them held. -/
theorem stepKeepsRegistersInReset : Obligations.StepKeepsRegistersInReset := by
  refine ⟨fun c _ _ => State.resetWith_resetValues c, fun s rest hport => ?_, fun s t => step_keeps_heldHasResetValues⟩
  exact ⟨_, step_of_reset_asserted hport, rfl, fun _ => s.hardReset_resetValues⟩

/-- Settles O7, each clause by the rule of its input; the release keeps the six registers that the hold has set. -/
theorem resetInputActsAsReset : Obligations.ResetInputActsAsReset := by
  refine fun s rest => ⟨fun hport => ?_, fun _ => step_of_present_held, step_of_reset_released,
    step_of_reset_released_illFormed, fun hport hw hheld hs => ?_⟩
  · rw [step_of_reset_asserted hport, State.hardReset_eq]
  · exact ⟨_, step_of_reset_released hport hw, rfl, hs hheld⟩

/-- Settles O12: the values of R291 do not depend on the configuration, and the model's reset state is the one under T1. -/
theorem resetLeavesStatedValues : Obligations.ResetLeavesStatedValues := by
  refine ⟨rfl, fun c => ?_⟩
  obtain ⟨hllen, hlovf, hrlen, hrst, hcsl, hvalid⟩ := State.resetWith_resetValues c
  exact ⟨hllen, hlovf, hrlen, hrst, hvalid, hcsl⟩

end Sys2Proof.Machine
